-- ==== Sys2Proof/Word.lean ====
section
/-! DEFINITION. The word types of the CHIP-8 core (spec/00_scope.md R5, R7, R8). Every value is an unsigned bit vector of
its stated width, bit 0 the least significant. -/

namespace Sys2Proof

/-- A 4-bit field of an opcode: a register index, a sprite height, a sub-opcode (R7, R10). -/
abbrev Nibble := BitVec 4

/-- A memory byte, a general register, a timer, an 8-bit immediate (R5). -/
abbrev Byte := BitVec 8

/-- A 12-bit address field `nnn`, and a memory index 0x000 to 0xFFF (R10, R60). -/
abbrev Addr := BitVec 12

/-- An opcode, I, PC, a stack entry (R5). -/
abbrev Word := BitVec 16

end Sys2Proof
end

