-- ==== Sys2Proof/Config.lean ====
section
/-! DEFINITION. What is fixed for one machine: the constants of spec/00_scope.md R5, the named parameters of R6 with
their defaults, and the free values (opaque: nothing in Lean can evaluate them). -/

namespace Sys2Proof

/-- ADDR_POLICY (R6, R64): what EA does with an address of 4096 or more. -/
inductive AddrPolicy where
  | wrap
  | fault
deriving DecidableEq, Repr

/-- ON_FAULT (R6, R285): what follows a fault. -/
inductive OnFault where
  | halt
  | skip
deriving DecidableEq, Repr

/-- Which forms VF_OPERAND = refuse refuses. The spec's two texts differ, so both lists are modelled (log entry 6). -/
inductive RefuseList where
  /-- D7 of spec/92_eei_decisions.md: 8xy4, 8xy5 and 8xy7 with y = F -/
  | onlyY
  /-- R191: 8xy4, 8xy5 and 8xy7 with x = F or y = F, and 8xy6 and 8xyE with x = F -/
  | anyOperand
deriving DecidableEq, Repr

/-- VF_OPERAND (R6, R191): how 8xy4 to 8xyE read their operands when VF is one of them. -/
inductive VfOperand where
  | latched
  | sequential
  | refuse (list : RefuseList)
deriving DecidableEq, Repr

/-- KEYWAIT_TRIGGER (R6, R253): which keys end the wait of Fx0A. -/
inductive KeyTrigger where
  | edge
  | level
deriving DecidableEq, Repr

/-- KEY_INDEX_POLICY (R6, R252): what Ex9E and ExA1 do with a key index of 16 or more. -/
inductive KeyIndexPolicy where
  | fault
  | mask
deriving DecidableEq, Repr

/-- The named parameters of R6 that are plain data. INIT_MEM, RANDOM and the tick schedule are free values below.
The machine's state carries them (log entry 1), so a statement over all states holds for every value of each. -/
structure Params where
  /-- ADDR_POLICY -/
  addrPolicy : AddrPolicy
  /-- ON_FAULT -/
  onFault : OnFault
  /-- DECODE_STRICT (R97) -/
  decodeStrict : Bool
  /-- VF_OPERAND -/
  vfOperand : VfOperand
  /-- KEYWAIT_TRIGGER -/
  keyTrigger : KeyTrigger
  /-- KEY_INDEX_POLICY -/
  keyIndexPolicy : KeyIndexPolicy
  /-- FONT (R44): byte b is installed at address 0x000 + b by a reset. -/
  font : Vector Byte 80
deriving DecidableEq, Repr

/-- The 80 font bytes of R44, glyph d the five bytes at 5 * d, top row first. The spec marks these values as general
knowledge: PRESUMED, log entry 4. -/
def standardFont : Vector Byte 80 := #v[
  0xF0, 0x90, 0x90, 0x90, 0xF0,
  0x20, 0x60, 0x20, 0x20, 0x70,
  0xF0, 0x10, 0xF0, 0x80, 0xF0,
  0xF0, 0x10, 0xF0, 0x10, 0xF0,
  0x90, 0x90, 0xF0, 0x10, 0x10,
  0xF0, 0x80, 0xF0, 0x10, 0xF0,
  0xF0, 0x80, 0xF0, 0x90, 0xF0,
  0xF0, 0x10, 0x20, 0x40, 0x40,
  0xF0, 0x90, 0xF0, 0x90, 0xF0,
  0xF0, 0x90, 0xF0, 0x10, 0xF0,
  0xF0, 0x90, 0xF0, 0x90, 0x90,
  0xE0, 0x90, 0xE0, 0x90, 0xE0,
  0xF0, 0x80, 0x80, 0x80, 0xF0,
  0xE0, 0x90, 0x90, 0x90, 0xE0,
  0xF0, 0x80, 0xF0, 0x80, 0xF0,
  0xF0, 0x80, 0xF0, 0x80, 0x80]

/-- The default value of every parameter (R6). -/
def defaultParams : Params where
  addrPolicy := .wrap
  onFault := .halt
  decodeStrict := true
  vfOperand := .latched
  keyTrigger := .edge
  keyIndexPolicy := .fault
  font := standardFont

/-- MEM_SIZE (R5). -/
abbrev memSize : Nat := 4096
/-- FONT_SIZE (R5); FONT_BASE is 0x000. -/
abbrev fontSize : Nat := 80
/-- PROG_BASE (R5). -/
abbrev progBase : Nat := 0x200
/-- PROG_MAX (R5). -/
abbrev progMax : Nat := 3584
/-- STACK_DEPTH (R5). -/
abbrev stackDepth : Nat := 32
/-- FB_W (R5). -/
abbrev fbWidth : Nat := 64
/-- FB_H (R5). -/
abbrev fbHeight : Nat := 32

/-- RANDOM (R6, R195): the byte that the n-th `RandomByte()` draws. A free value: log entry 3. -/
opaque Config.randomByte : Nat → Byte

/-- INIT_MEM (R6, R46): what the byte at an address outside the font holds at power-on. A free value: log entry 2. -/
opaque Config.initMem : Nat → Byte

/-- The tick schedule (R6, R301) where the host's script in State names none: the `tick_due` of the cycle that finds
`cycle_count` = n. A free value: log entry 5. -/
opaque Config.tickDue : Nat → Bool

end Sys2Proof
end

