-- ==== Sys2Proof/WellFormed.lean ====
section
/-! DEFINITION. Which instructions the decoder can produce under each value of DECODE_STRICT (R96, R97). Every other
bound on an operand (a register index below 16, a 12-bit address) is carried by the operand's type. -/

namespace Sys2Proof

/-- Well-formed under `strict`: the nibble that R96 fixes to 0 and only R97's loose decode ignores is 0 when the decode
is strict. -/
def wellFormed (strict : Bool) : Instr → Bool
  | .cls x => !strict || x == 0
  | .ret x => !strict || x == 0
  | .seReg _ _ n => !strict || n == 0
  | .sneReg _ _ n => !strict || n == 0
  | .jp _ | .call _ | .seImm _ _ | .sneImm _ _ | .ldImm _ _ | .addImm _ _ => true
  | .ldReg _ _ | .orReg _ _ | .andReg _ _ | .xorReg _ _ => true
  | .addReg _ _ | .sub _ _ | .shr _ _ | .subn _ _ | .shl _ _ => true
  | .ldI _ | .jpV0 _ | .rnd _ _ | .drw _ _ _ => true
  | .skp _ | .sknp _ | .ldVxDt _ | .ldVxK _ | .ldDtVx _ | .ldStVx _ => true
  | .addI _ | .ldF _ | .ldB _ | .storeRegs _ | .loadRegs _ => true

end Sys2Proof
end

