-- ==== Sys2Proof/Decode.lean ====
section
/-! DEFINITION. The decoder and the encoder (spec/30_encoding.md). Decoding is total: every 16-bit value is one
instruction of R96 or the verdict `invalid` (R101), and a run of fewer than two bytes is `truncated`. -/

namespace Sys2Proof

/-- op[15:12], the family (R91). -/
def opFamily (op : Word) : Nibble := op.extractLsb' 12 4
/-- op[11:8] (R91). -/
def opX (op : Word) : Nibble := op.extractLsb' 8 4
/-- op[7:4] (R91). -/
def opY (op : Word) : Nibble := op.extractLsb' 4 4
/-- op[3:0] (R91). -/
def opN (op : Word) : Nibble := op.extractLsb' 0 4
/-- op[7:0], the low byte (R91). -/
def opKk (op : Word) : Byte := op.extractLsb' 0 8
/-- op[11:0] (R91). -/
def opNnn (op : Word) : Addr := op.extractLsb' 0 12

/-- What the decoder answers for a 16-bit value (R101, R102). -/
inductive Verdict where
  /-- an instruction of R96 with its fields -/
  | instr (i : Instr)
  /-- no row of R96 matches: raises InvalidInstruction when executed (R281) -/
  | invalid (op : Word)
deriving DecidableEq, Repr

/-- `i` when `ok` holds, otherwise the verdict Invalid. -/
def instrIf (op : Word) (ok : Bool) (i : Instr) : Verdict :=
  if ok then .instr i else .invalid op

/-- Family 0: the low byte selects, and op[11:8] must be 0 under DECODE_STRICT (R94, R97). -/
def decodeFamily0 (strict : Bool) (op : Word) : Verdict :=
  match opKk op with
  | 0xE0#8 => instrIf op (!strict || opX op == 0) (.cls (opX op))
  | 0xEE#8 => instrIf op (!strict || opX op == 0) (.ret (opX op))
  | _ => .invalid op

/-- Family 8: the low nibble selects (R94). -/
def decodeFamily8 (op : Word) : Verdict :=
  match opN op with
  | 0x0#4 => .instr (.ldReg (opX op) (opY op))
  | 0x1#4 => .instr (.orReg (opX op) (opY op))
  | 0x2#4 => .instr (.andReg (opX op) (opY op))
  | 0x3#4 => .instr (.xorReg (opX op) (opY op))
  | 0x4#4 => .instr (.addReg (opX op) (opY op))
  | 0x5#4 => .instr (.sub (opX op) (opY op))
  | 0x6#4 => .instr (.shr (opX op) (opY op))
  | 0x7#4 => .instr (.subn (opX op) (opY op))
  | 0xE#4 => .instr (.shl (opX op) (opY op))
  | _ => .invalid op

/-- Family E: the low byte selects (R94). -/
def decodeFamilyE (op : Word) : Verdict :=
  match opKk op with
  | 0x9E#8 => .instr (.skp (opX op))
  | 0xA1#8 => .instr (.sknp (opX op))
  | _ => .invalid op

/-- Family F: the low byte selects (R94). -/
def decodeFamilyF (op : Word) : Verdict :=
  match opKk op with
  | 0x07#8 => .instr (.ldVxDt (opX op))
  | 0x0A#8 => .instr (.ldVxK (opX op))
  | 0x15#8 => .instr (.ldDtVx (opX op))
  | 0x18#8 => .instr (.ldStVx (opX op))
  | 0x1E#8 => .instr (.addI (opX op))
  | 0x29#8 => .instr (.ldF (opX op))
  | 0x33#8 => .instr (.ldB (opX op))
  | 0x55#8 => .instr (.storeRegs (opX op))
  | 0x65#8 => .instr (.loadRegs (opX op))
  | _ => .invalid op

/-- The decoder (R94, R96, R97, R101): dispatch on the family, then on the sub-opcode. `strict` is DECODE_STRICT. -/
def decodeOp (strict : Bool) (op : Word) : Verdict :=
  match opFamily op with
  | 0x0#4 => decodeFamily0 strict op
  | 0x1#4 => .instr (.jp (opNnn op))
  | 0x2#4 => .instr (.call (opNnn op))
  | 0x3#4 => .instr (.seImm (opX op) (opKk op))
  | 0x4#4 => .instr (.sneImm (opX op) (opKk op))
  | 0x5#4 => instrIf op (!strict || opN op == 0) (.seReg (opX op) (opY op) (opN op))
  | 0x6#4 => .instr (.ldImm (opX op) (opKk op))
  | 0x7#4 => .instr (.addImm (opX op) (opKk op))
  | 0x8#4 => decodeFamily8 op
  | 0x9#4 => instrIf op (!strict || opN op == 0) (.sneReg (opX op) (opY op) (opN op))
  | 0xA#4 => .instr (.ldI (opNnn op))
  | 0xB#4 => .instr (.jpV0 (opNnn op))
  | 0xC#4 => .instr (.rnd (opX op) (opKk op))
  | 0xD#4 => .instr (.drw (opX op) (opY op) (opN op))
  | 0xE#4 => decodeFamilyE op
  | _ => decodeFamilyF op      -- 0xF, the one family left

/-- The 16 bits of an instruction, written from the encodings of R92 and R96. The encoding is also how a fault recovers
the opcode it records (R284), which is why `Instr` drops no bit. -/
def encode : Instr → Word
  | .cls x => 0x0#4 ++ x ++ 0xE0#8
  | .ret x => 0x0#4 ++ x ++ 0xEE#8
  | .jp nnn => 0x1#4 ++ nnn
  | .call nnn => 0x2#4 ++ nnn
  | .seImm x kk => 0x3#4 ++ x ++ kk
  | .sneImm x kk => 0x4#4 ++ x ++ kk
  | .seReg x y n => 0x5#4 ++ x ++ y ++ n
  | .ldImm x kk => 0x6#4 ++ x ++ kk
  | .addImm x kk => 0x7#4 ++ x ++ kk
  | .ldReg x y => 0x8#4 ++ x ++ y ++ 0x0#4
  | .orReg x y => 0x8#4 ++ x ++ y ++ 0x1#4
  | .andReg x y => 0x8#4 ++ x ++ y ++ 0x2#4
  | .xorReg x y => 0x8#4 ++ x ++ y ++ 0x3#4
  | .addReg x y => 0x8#4 ++ x ++ y ++ 0x4#4
  | .sub x y => 0x8#4 ++ x ++ y ++ 0x5#4
  | .shr x y => 0x8#4 ++ x ++ y ++ 0x6#4
  | .subn x y => 0x8#4 ++ x ++ y ++ 0x7#4
  | .shl x y => 0x8#4 ++ x ++ y ++ 0xE#4
  | .sneReg x y n => 0x9#4 ++ x ++ y ++ n
  | .ldI nnn => 0xA#4 ++ nnn
  | .jpV0 nnn => 0xB#4 ++ nnn
  | .rnd x kk => 0xC#4 ++ x ++ kk
  | .drw x y n => 0xD#4 ++ x ++ y ++ n
  | .skp x => 0xE#4 ++ x ++ 0x9E#8
  | .sknp x => 0xE#4 ++ x ++ 0xA1#8
  | .ldVxDt x => 0xF#4 ++ x ++ 0x07#8
  | .ldVxK x => 0xF#4 ++ x ++ 0x0A#8
  | .ldDtVx x => 0xF#4 ++ x ++ 0x15#8
  | .ldStVx x => 0xF#4 ++ x ++ 0x18#8
  | .addI x => 0xF#4 ++ x ++ 0x1E#8
  | .ldF x => 0xF#4 ++ x ++ 0x29#8
  | .ldB x => 0xF#4 ++ x ++ 0x33#8
  | .storeRegs x => 0xF#4 ++ x ++ 0x55#8
  | .loadRegs x => 0xF#4 ++ x ++ 0x65#8

/-- The opcode map as the spec prints it (R96, and R97 under DECODE_STRICT = false): each row's mask and match, in the
table's order. The decoder does not use it; statements hold the decoder against it. -/
def opcodeMap (strict : Bool) : List (Word × Word) :=
  [
   (if strict then 0xFFFF else 0xF0FF, 0x00E0),
   (if strict then 0xFFFF else 0xF0FF, 0x00EE),
   (0xF000, 0x1000),
   (0xF000, 0x2000),
   (0xF000, 0x3000),
   (0xF000, 0x4000),
   (if strict then 0xF00F else 0xF000, 0x5000),
   (0xF000, 0x6000),
   (0xF000, 0x7000)] ++
  [
   (0xF00F, 0x8000),
   (0xF00F, 0x8001),
   (0xF00F, 0x8002),
   (0xF00F, 0x8003),
   (0xF00F, 0x8004),
   (0xF00F, 0x8005),
   (0xF00F, 0x8006),
   (0xF00F, 0x8007),
   (0xF00F, 0x800E)] ++
  [
   (if strict then 0xF00F else 0xF000, 0x9000),
   (0xF000, 0xA000),
   (0xF000, 0xB000),
   (0xF000, 0xC000),
   (0xF000, 0xD000),
   (0xF0FF, 0xE09E),
   (0xF0FF, 0xE0A1)] ++
  [
   (0xF0FF, 0xF007),
   (0xF0FF, 0xF00A),
   (0xF0FF, 0xF015),
   (0xF0FF, 0xF018),
   (0xF0FF, 0xF01E),
   (0xF0FF, 0xF029),
   (0xF0FF, 0xF033),
   (0xF0FF, 0xF055),
   (0xF0FF, 0xF065)]

/-- The position of an instruction's row in the opcode map (R96). -/
def rowOf : Instr → Nat
  | .cls _ => 0
  | .ret _ => 1
  | .jp _ => 2
  | .call _ => 3
  | .seImm _ _ => 4
  | .sneImm _ _ => 5
  | .seReg _ _ _ => 6
  | .ldImm _ _ => 7
  | .addImm _ _ => 8
  | .ldReg _ _ => 9
  | .orReg _ _ => 10
  | .andReg _ _ => 11
  | .xorReg _ _ => 12
  | .addReg _ _ => 13
  | .sub _ _ => 14
  | .shr _ _ => 15
  | .subn _ _ => 16
  | .shl _ _ => 17
  | .sneReg _ _ _ => 18
  | .ldI _ => 19
  | .jpV0 _ => 20
  | .rnd _ _ => 21
  | .drw _ _ _ => 22
  | .skp _ => 23
  | .sknp _ => 24
  | .ldVxDt _ => 25
  | .ldVxK _ => 26
  | .ldDtVx _ => 27
  | .ldStVx _ => 28
  | .addI _ => 29
  | .ldF _ => 30
  | .ldB _ => 31
  | .storeRegs _ => 32
  | .loadRegs _ => 33

/-- The opcode of two bytes, big-endian: the byte at the lower address is op[15:8] (R67). -/
def opOfBytes (hi lo : Byte) : Word := hi ++ lo

/-- op[15:8], the byte at the lower address (R67). -/
def opHi (op : Word) : Byte := op.extractLsb' 8 8
/-- op[7:0], the byte at the higher address (R67). -/
def opLo (op : Word) : Byte := op.extractLsb' 0 8

/-- An instruction's bytes in address order (R67, R90). -/
def encodeBytes (i : Instr) : List Byte := [opHi (encode i), opLo (encode i)]

/-- What decoding a run of bytes answers. -/
inductive Decoded where
  /-- an instruction and the bytes after it -/
  | instr (i : Instr) (rest : List Byte)
  /-- the two bytes are no opcode of R96: InvalidInstruction (R281) -/
  | invalidInstruction (op : Word)
  /-- fewer than two bytes; every instruction is exactly 16 bits (R90) -/
  | truncated
deriving DecidableEq, Repr

/-- Decode the first instruction of a run of bytes (R67, R90, R101). -/
def decodeBytes (strict : Bool) : List Byte → Decoded
  | hi :: lo :: rest =>
    match decodeOp strict (opOfBytes hi lo) with
    | .instr i => .instr i rest
    | .invalid op => .invalidInstruction op
  | [_] => .truncated
  | [] => .truncated

/-- The 16-bit value of a table row of `nbits` bits `w`, the bits above `nbits` being 0. -/
def tableOp (nbits w : Nat) : Word := BitVec.ofNat 16 (w % 2 ^ nbits)

/-- The host's question: the instruction read from the bits `w`, numbered as spec/opcode_table.json numbers them (one
16-bit word, bit 0 its least significant bit), laid out big-endian (R67), under the default DECODE_STRICT = true. -/
def decodeTableWord (nbits w : Nat) : Option Instr :=
  match decodeBytes defaultParams.decodeStrict [opHi (tableOp nbits w), opLo (tableOp nbits w)] with
  | .instr i _ => some i
  | .invalidInstruction _ => none
  | .truncated => none

/-! The spec's way of writing an instruction in a listing (R110). It has no behaviour: the opcode is normative. -/

/-- A nibble as a hexadecimal digit. -/
def hexDigit (d : Nibble) : String :=
  (["0", "1", "2", "3", "4", "5", "6", "7", "8", "9", "A", "B", "C", "D", "E", "F"][d.toNat]?).getD "0"

/-- A byte as two hexadecimal digits. -/
def hexByte (b : Byte) : String := hexDigit (b.extractLsb' 4 4) ++ hexDigit (b.extractLsb' 0 4)

/-- A 12-bit address as three hexadecimal digits. -/
def hexAddr (a : Addr) : String := hexDigit (a.extractLsb' 8 4) ++ hexByte (a.extractLsb' 0 8)

/-- A register operand, `Vx`. -/
def regName (x : Nibble) : String := "V" ++ hexDigit x

/-- An instruction as a listing writes it (R110). Nibbles with no effect are not written. -/
def listing : Instr → String
  | .cls _ => "CLS"
  | .ret _ => "RET"
  | .jp nnn => "JP " ++ hexAddr nnn
  | .call nnn => "CALL " ++ hexAddr nnn
  | .seImm x kk => "SE " ++ regName x ++ ", " ++ hexByte kk
  | .sneImm x kk => "SNE " ++ regName x ++ ", " ++ hexByte kk
  | .seReg x y _ => "SE " ++ regName x ++ ", " ++ regName y
  | .ldImm x kk => "LD " ++ regName x ++ ", " ++ hexByte kk
  | .addImm x kk => "ADD " ++ regName x ++ ", " ++ hexByte kk
  | .ldReg x y => "LD " ++ regName x ++ ", " ++ regName y
  | .orReg x y => "OR " ++ regName x ++ ", " ++ regName y
  | .andReg x y => "AND " ++ regName x ++ ", " ++ regName y
  | .xorReg x y => "XOR " ++ regName x ++ ", " ++ regName y
  | .addReg x y => "ADD " ++ regName x ++ ", " ++ regName y
  | .sub x y => "SUB " ++ regName x ++ ", " ++ regName y
  | .shr x _ => "SHR " ++ regName x
  | .subn x y => "SUBN " ++ regName x ++ ", " ++ regName y
  | .shl x _ => "SHL " ++ regName x
  | .sneReg x y _ => "SNE " ++ regName x ++ ", " ++ regName y
  | .ldI nnn => "LD I, " ++ hexAddr nnn
  | .jpV0 nnn => "JP V0, " ++ hexAddr nnn
  | .rnd x kk => "RND " ++ regName x ++ ", " ++ hexByte kk
  | .drw x y n => "DRW " ++ regName x ++ ", " ++ regName y ++ ", " ++ hexDigit n
  | .skp x => "SKP " ++ regName x
  | .sknp x => "SKNP " ++ regName x
  | .ldVxDt x => "LD " ++ regName x ++ ", DT"
  | .ldVxK x => "LD " ++ regName x ++ ", K"
  | .ldDtVx x => "LD DT, " ++ regName x
  | .ldStVx x => "LD ST, " ++ regName x
  | .addI x => "ADD I, " ++ regName x
  | .ldF x => "LD F, " ++ regName x
  | .ldB x => "LD B, " ++ regName x
  | .storeRegs x => "LD [I], " ++ regName x
  | .loadRegs x => "LD " ++ regName x ++ ", [I]"

end Sys2Proof
end

