-- ==== Sys2Proof/Machine/State.lean ====
section
/-! DEFINITION. The machine's state as plain data: everything spec/10_state.md names (R20 to R46), the outputs of
spec/60_exceptions.md R324, and three fields of the model's own, marked so. -/

namespace Sys2Proof.Machine

/-- `run_state` (R37). -/
inductive RunState where
  | running
  | halted
deriving DecidableEq, Repr

/-- `fault_cause` (R38, R280): the four faults, and None. `FaultCause.code` in Ops.lean gives the 3-bit codes. -/
inductive FaultCause where
  | none
  | invalidInstruction
  | stackOverflow
  | stackUnderflow
  | addressOutOfRange
deriving DecidableEq, Repr

/-- The result a cycle returns to the host (R312). -/
inductive CycleResult where
  | ok
  | fault (cause : FaultCause)
  | halted
deriving DecidableEq, Repr

/-- The result LoadProgram returns to the host (R342, R343). -/
inductive LoadResult where
  | loadOk
  | loadRejected
deriving DecidableEq, Repr

/-- The host's actions (R320), each atomic and only between cycles. -/
inductive HostAction where
  /-- `Cycle(tick_due)` (R311) -/
  | cycle (tickDue : Bool)
  /-- `SetKeys(k)` (R321) -/
  | setKeys (k : BitVec 16)
  /-- `ClearRedraw` (R323) -/
  | clearRedraw
  /-- `Quit` (R322) -/
  | quit
  /-- `Reset` (R340) -/
  | reset
  /-- `LoadProgram(bytes)` (R342) -/
  | loadProgram (bytes : List Byte)
deriving DecidableEq, Repr

/-- Memory as the list of the bytes that have been written (address, byte), in one canonical form (`Memory.wf` in
Ops.lean). What an unlisted address reads as is `Memory.unlisted` there. -/
abbrev Memory := List Host.Cell

/-- The state of the core. -/
structure State where
  /-- V0 to VF (R20) -/
  v : Vector Byte 16
  /-- I (R25) -/
  i : Word
  /-- PC (R26) -/
  pc : Word
  /-- the return stack (R29) -/
  stack : Vector Word 32
  /-- SP, the count of entries in use, 0 to 32 (R30) -/
  sp : Fin 33
  /-- DT, the delay timer (R32) -/
  dt : Byte
  /-- ST, the sound timer (R33) -/
  st : Byte
  /-- the 4096-byte memory (R60) -/
  mem : Memory
  /-- the 64 by 32 framebuffer (R34): pixel (X, Y) is bit X of row Y, X = 0 the left column -/
  fb : Vector (BitVec 64) 32
  /-- the "needs redisplay" flag (R35) -/
  redraw : Bool
  /-- the key input (R40): bit k is keys[k] -/
  keys : BitVec 16
  /-- the key input at the end of the previous cycle (R41) -/
  keyPrev : BitVec 16
  /-- run_state (R37) -/
  runState : RunState
  /-- fault_cause (R38) -/
  faultCause : FaultCause
  /-- fault_pc (R38) -/
  faultPc : Word
  /-- fault_opcode (R38) -/
  faultOpcode : Word
  /-- fault_addr (R38) -/
  faultAddr : BitVec 17
  /-- cycle_count (R39) -/
  cycleCount : Nat
  /-- tick_count (R39) -/
  tickCount : Nat
  /-- the result of the last cycle, an output (R312, R324) -/
  lastResult : CycleResult
  /-- what the last LoadProgram returned (R342, R343) -/
  lastLoad : LoadResult
  /-- the parameters of R6, which no step changes (R43; log entry 1) -/
  params : Params
  /-- the model's own: how many random bytes have been drawn (R195; log entry 3) -/
  draws : Nat
  /-- the model's own: the host's coming actions, the next one first (R320; log entry 5) -/
  script : List HostAction
deriving DecidableEq, Repr

/-- Why a step stops with a fault: no step does, so there is no constructor. Each of the spec's four faults is a NEXT
state, with the fault record written and the core halted or the instruction skipped (R284, R285), because the host
reads the record afterwards (R324). No constructor is safe: no behaviour is left out by one. -/
inductive Fault where
deriving DecidableEq, Repr

/-- Why a step is refused. -/
inductive Refusal where
  /-- raised by exec's arm of an instruction that has no meaning yet, and by nothing else (safe: nothing is claimed) -/
  | notModelled (mnemonic : String)
  /-- raised by 8xy4, 8xy5, 8xy6, 8xy7 and 8xyE on VF as an operand, only under VF_OPERAND = refuse, where R191 says that
  the model refuses them, and only for the forms on its list (log entry 6; safe for the form refused: the spec says that
  this value errs toward unprovable) -/
  | vfOperand
deriving DecidableEq, Repr

/-- The machine at power-on and right after a reset (R45, R46): memory lists nothing, so it reads as the font and, above
it, INIT_MEM. The parameters have their defaults (R6), and the host's script is empty. -/
def State.reset : State where
  v := Vector.replicate 16 0
  i := 0
  pc := 0x200
  stack := Vector.replicate 32 0
  sp := 0
  dt := 0
  st := 0
  mem := []
  fb := Vector.replicate 32 0
  redraw := false
  keys := 0
  keyPrev := 0
  runState := .running
  faultCause := .none
  faultPc := 0
  faultOpcode := 0
  faultAddr := 0
  cycleCount := 0
  tickCount := 0
  lastResult := .ok
  lastLoad := .loadOk
  params := defaultParams
  draws := 0
  script := []

end Sys2Proof.Machine
end

