-- ==== Sys2Proof/Machine/Ops.lean ====
section
/-! DEFINITION. The named operations over memory, registers, framebuffer and PC, and taking a fault: the one operation by
which an instruction raises a fault (R284, R285). -/

namespace Sys2Proof.Machine

/-! Memory (R60, R66) -/

/-- What an address that the list does not name reads as, where the spec says it: the font byte in 0x000 to 0x04F (R44,
R45). Above the font the spec gives no value (R46), and a read gives the free value INIT_MEM: log entry 2. -/
def Memory.unlisted (font : Vector Byte 80) (a : Nat) : Option Byte := font[a]?

/-- The byte listed at address `a`, if any. -/
def Memory.find : Memory → Nat → Option Byte
  | [], _ => none
  | (b, w) :: m, a => if b = a then some w else Memory.find m a

/-- The byte at memory index `a`: `MemRead(a, 1)` of R66. -/
def Memory.read (font : Vector Byte 80) (m : Memory) (a : Nat) : Byte :=
  match Memory.find m a with
  | some v => v
  | none =>
    match Memory.unlisted font a with
    | some v => v
    | none => Config.initMem a

/-- List `v` at address `a`, keeping the addresses rising. -/
def Memory.insert (a : Nat) (v : Byte) : Memory → Memory
  | [] => [(a, v)]
  | (b, w) :: m =>
    if a < b then (a, v) :: (b, w) :: m
    else if a = b then (a, v) :: m
    else (b, w) :: Memory.insert a v m

/-- List nothing at address `a`. -/
def Memory.erase (a : Nat) (m : Memory) : Memory := m.filter (fun c => c.1 != a)

/-- `MemWrite(a, 1, v)` of R66, in the canonical form: writing what an unlisted `a` reads as lists nothing there. -/
def Memory.write (font : Vector Byte 80) (m : Memory) (a : Nat) (v : Byte) : Memory :=
  if Memory.unlisted font a = some v then Memory.erase a m else Memory.insert a v m

/-- The addresses rise strictly, from `lo` on, and are below 4096 (R60). -/
def Memory.rising : Nat → Memory → Bool
  | _, [] => true
  | lo, (a, _) :: m => decide (lo ≤ a) && decide (a < memSize) && Memory.rising (a + 1) m

/-- The canonical form of memory: addresses strictly rising and below 4096, and no entry equal to what an unlisted
address reads as. -/
def Memory.wf (font : Vector Byte 80) (m : Memory) : Bool :=
  Memory.rising 0 m && m.all (fun c => Memory.unlisted font c.1 != some c.2)

/-- The memory index that an address computed as a natural number stands for, once EA has not faulted: the address mod
4096, which is the address itself when it is below 4096 (R64). -/
def memIndex (a : Nat) : Nat := a % memSize

/-- Write a run of bytes at increasing addresses from `a` on, each address reduced by EA (R66, R68). -/
def Memory.writeRun (font : Vector Byte 80) : Memory → Nat → List Byte → Memory
  | m, _, [] => m
  | m, a, v :: vs => Memory.writeRun font (Memory.write font m (memIndex a) v) (a + 1) vs

/-- The byte of memory at index `a` in a state (R66). -/
def State.memByte (s : State) (a : Nat) : Byte := Memory.read s.params.font s.mem a

/-- Write a run of bytes from address `a` on (R68). -/
def State.writeMem (s : State) (a : Nat) (bytes : List Byte) : State :=
  { s with mem := Memory.writeRun s.params.font s.mem a bytes }

/-- The `n` bytes at increasing addresses from `a` on, each address reduced by EA (R68). -/
def State.readRun (s : State) (a n : Nat) : List Byte :=
  (List.range n).map (fun k => s.memByte (memIndex (a + k)))

/-! Registers (R20, R21) -/

/-- V[x]. -/
def State.getV (s : State) (x : Nibble) : Byte := s.v[x.toNat]

/-- V[x] <- b. No register is hard-wired (R21). -/
def State.setV (s : State) (x : Nibble) (b : Byte) : State := { s with v := s.v.set x.toNat b }

/-- I <- w. -/
def State.setI (s : State) (w : Word) : State := { s with i := w }

/-- DT <- b. -/
def State.setDt (s : State) (b : Byte) : State := { s with dt := b }

/-- ST <- b. -/
def State.setSt (s : State) (b : Byte) : State := { s with st := b }

/-- PC <- w. -/
def State.setPc (s : State) (w : Word) : State := { s with pc := w }

/-- `pc_next`: PC + 2 modulo 65536 (R9, R104). -/
def State.pcNext (s : State) : Word := s.pc + 2

/-- The default advance, PC <- pc_next (R104). -/
def State.advance (s : State) : State := s.setPc s.pcNext

/-- The skip: PC + 4 modulo 65536 when `c` holds, pc_next otherwise (R105). -/
def State.skipIf (s : State) (c : Bool) : State := if c then s.setPc (s.pc + 4) else s.advance

/-- V[0] to V[n - 1]. -/
def State.firstRegs (s : State) (n : Nat) : List Byte :=
  (List.range n).map (fun k => s.getV (BitVec.ofNat 4 k))

/-- V[k], V[k+1], ... <- the bytes in order. -/
def State.setRegsFrom : State → Nat → List Byte → State
  | s, _, [] => s
  | s, k, b :: bs => State.setRegsFrom (s.setV (BitVec.ofNat 4 k) b) (k + 1) bs

/-! The stack (R29, R30) -/

/-- Push: stack[SP] <- w, then SP <- SP + 1. Used only below the capacity; at it, nothing is written. -/
def State.push (s : State) (w : Word) : State :=
  if h : s.sp.val < 32 then
    { s with stack := s.stack.set s.sp.val w, sp := ⟨s.sp.val + 1, Nat.succ_lt_succ h⟩ }
  else s

/-- stack[j], the entry with index `j` (R29). -/
def State.stackAt (s : State) (j : Nat) : Word := (s.stack[j]?).getD 0

/-- Pop: SP <- SP - 1. The entry stays in the stack (R31). -/
def State.pop (s : State) : State :=
  { s with sp := ⟨s.sp.val - 1, Nat.lt_of_le_of_lt (Nat.sub_le _ _) s.sp.isLt⟩ }

/-! The framebuffer (R34) -/

/-- fb[p]: the cell p = Y * 64 + X is bit X of row Y. -/
def Fb.cell (fb : Vector (BitVec 64) 32) (p : Nat) : Bool := ((fb[p / fbWidth]?).getD 0).getLsbD (p % fbWidth)

/-- fb[p] <- fb[p] XOR 1. -/
def Fb.flip (fb : Vector (BitVec 64) 32) (p : Nat) : Vector (BitVec 64) 32 :=
  fb.setIfInBounds (p / fbWidth) ((fb[p / fbWidth]?).getD 0 ^^^ BitVec.twoPow 64 (p % fbWidth))

/-- fb[p] in a state. -/
def State.cell (s : State) (p : Nat) : Bool := Fb.cell s.fb p

/-- The framebuffer and the collision of a draw in progress (R131). -/
structure Drawing where
  /-- the framebuffer so far -/
  fb : Vector (BitVec 64) 32
  /-- a pixel has gone from 1 to 0 -/
  collide : Bool
deriving DecidableEq, Repr

/-- One set bit of the sprite lands on cell `p` (R131, R133). -/
def Drawing.plot (d : Drawing) (p : Nat) : Drawing where
  fb := Fb.flip d.fb p
  collide := d.collide || Fb.cell d.fb p

/-- The cell of column `col` and row `row`, each reduced first: modulo 64 across and modulo 32 down (R134). -/
def wrapCell (col row : Nat) : Nat := (row % fbHeight) * fbWidth + col % fbWidth

/-- The inner loop of R131: columns `c` = 0 to 7 of one sprite row, bit 7 - c of the byte (R132). -/
def Drawing.row (d : Drawing) (px row : Nat) (b : Byte) : Drawing :=
  (List.range 8).foldl (fun d c => if b.getLsbD (7 - c) then d.plot (wrapCell (px + c) row) else d) d

/-- The outer loop of R131: the sprite's rows in memory order, the first at row `py` (R132). -/
def Drawing.sprite (px : Nat) : Drawing → Nat → List Byte → Drawing
  | d, _, [] => d
  | d, py, b :: bs => Drawing.sprite px (d.row px py b) (py + 1) bs

/-! Faults (R280 to R286) -/

/-- The 3-bit code of `fault_cause` (R38, R280). -/
def FaultCause.code : FaultCause → BitVec 3
  | .none => 0
  | .invalidInstruction => 1
  | .stackOverflow => 2
  | .stackUnderflow => 3
  | .addressOutOfRange => 4

/-- Write the fault record of R284. PC still holds the faulting instruction's address. -/
def State.recordFault (s : State) (cause : FaultCause) (op : Word) (info : Nat) : State :=
  { s with
    faultCause := cause
    faultPc := s.pc
    faultOpcode := op
    faultAddr := BitVec.ofNat 17 info
    lastResult := .fault cause }

/-- Take a fault (R284, R285): the record is written and nothing else that the instruction would write; then, by
ON_FAULT, the core halts or the instruction is passed over. `op` is the opcode fetched, 0 when the fetch itself faulted;
`info` is the address, the key value, or 0 (R280). -/
def State.takeFault (s : State) (cause : FaultCause) (op : Word) (info : Nat) : State :=
  match s.params.onFault with
  | .halt => { s.recordFault cause op info with runState := .halted }
  | .skip => (s.recordFault cause op info).advance

/-! The random byte (R195) -/

/-- The byte that the next `RandomByte()` returns. -/
def State.randomByte (s : State) : Byte := Config.randomByte s.draws

/-- Count one draw, so that the next one is free again. -/
def State.drawn (s : State) : State := { s with draws := s.draws + 1 }

end Sys2Proof.Machine
end

