-- ==== Sys2Proof/Machine/Flags.lean ====
section
/-! DEFINITION. Every flag and result of the flag-setting instructions 8xy4 to 8xyE (R186 to R190), computed exactly on
naturals and narrowed once, and the order in which the flag and the value are written (R106, R191). -/

namespace Sys2Proof.Machine

/-- VF (R22). -/
abbrev vf : Nibble := 0xF

/-- A flag value is exactly 0 or 1 (R22, R192). -/
def flagByte (f : Bool) : Byte := if f then 1 else 0

/-- The carry out of a + b (R186). -/
def carryOut (a b : Byte) : Bool := decide (a.toNat + b.toNat > 255)
/-- (a + b) mod 256 (R181, R186). -/
def add8 (a b : Byte) : Byte := BitVec.ofNat 8 (a.toNat + b.toNat)

/-- The not-borrow of a - b: a ≥ b (R187, R189). -/
def notBorrow (a b : Byte) : Bool := decide (a.toNat ≥ b.toNat)
/-- (a - b) mod 256: a - b + 256 when a < b (R187, R189). -/
def sub8 (a b : Byte) : Byte := BitVec.ofNat 8 (a.toNat + 256 - b.toNat)

/-- Bit 0 of a, the bit a right shift puts out (R188). -/
def lowBit (a : Byte) : Bool := a.getLsbD 0
/-- a >> 1, logical (R188). -/
def shr8 (a : Byte) : Byte := BitVec.ofNat 8 (a.toNat / 2)

/-- Bit 7 of a, the bit a left shift puts out (R190). -/
def highBit (a : Byte) : Bool := a.getLsbD 7
/-- (a << 1) mod 256 (R190). -/
def shl8 (a : Byte) : Byte := BitVec.ofNat 8 (2 * a.toNat)

/-- Does VF_OPERAND = refuse refuse 8xy4, 8xy5 or 8xy7 with these registers (R191; D7; log entry 6)? -/
def refusesPair (x y : Nibble) : RefuseList → Bool
  | .onlyY => y == vf
  | .anyOperand => x == vf || y == vf

/-- Does VF_OPERAND = refuse refuse 8xy6 or 8xyE with this register (R191; D7; log entry 6)? y is not read. -/
def refusesShift (x : Nibble) : RefuseList → Bool
  | .onlyY => false
  | .anyOperand => x == vf

/-- The writes of a flag-setting instruction: V[F] <- flag, then V[x] <- result, then the default advance, so that with
x = F the result remains (R106). `flag` and `result` say what is computed from the registers of a state; `refuses`
says which lists of refused forms name this one.
`latched`: the result is computed from the registers as they were at the start.
`sequential`: the result is computed from the registers read again after the flag write.
`refuse`: the model refuses the forms on the list, and any other form runs as the rules are written. DESIGN CHOICE, log
entry 6: R191 and D7 of spec/92_eei_decisions.md give two lists, and both are modelled. -/
def State.flagThenValue (s : State) (x : Nibble) (refuses : RefuseList → Bool) (flag : State → Bool)
    (result : State → Byte) : Host.Outcome State Fault Refusal :=
  let flagged := s.setV vf (flagByte (flag s))
  match s.params.vfOperand with
  | .latched => .next ((flagged.setV x (result s)).advance)
  | .sequential => .next ((flagged.setV x (result flagged)).advance)
  | .refuse list => if refuses list then .refused .vfOperand else .next ((flagged.setV x (result s)).advance)

end Sys2Proof.Machine
end

