-- ==== Sys2Proof/Machine/Alu.lean ====
section
/-! DEFINITION. Register load, arithmetic and logic (spec/42_alu.md). -/

namespace Sys2Proof.Machine

/-- `6xkk` LD Vx, kk (R180). -/
def execLdImm (x : Nibble) (kk : Byte) (s : State) : Host.Outcome State Fault Refusal :=
  .next ((s.setV x kk).advance)

/-- `7xkk` ADD Vx, kk (R181): no flag. -/
def execAddImm (x : Nibble) (kk : Byte) (s : State) : Host.Outcome State Fault Refusal :=
  .next ((s.setV x (add8 (s.getV x) kk)).advance)

/-- `8xy0` LD Vx, Vy (R182). -/
def execLdReg (x y : Nibble) (s : State) : Host.Outcome State Fault Refusal :=
  .next ((s.setV x (s.getV y)).advance)

/-- `8xy1` OR Vx, Vy (R183): no flag. -/
def execOrReg (x y : Nibble) (s : State) : Host.Outcome State Fault Refusal :=
  .next ((s.setV x (s.getV x ||| s.getV y)).advance)

/-- `8xy2` AND Vx, Vy (R184): no flag. -/
def execAndReg (x y : Nibble) (s : State) : Host.Outcome State Fault Refusal :=
  .next ((s.setV x (s.getV x &&& s.getV y)).advance)

/-- `8xy3` XOR Vx, Vy (R185): no flag. -/
def execXorReg (x y : Nibble) (s : State) : Host.Outcome State Fault Refusal :=
  .next ((s.setV x (s.getV x ^^^ s.getV y)).advance)

/-- `8xy4` ADD Vx, Vy (R186). -/
def execAddReg (x y : Nibble) (s : State) : Host.Outcome State Fault Refusal :=
  s.flagThenValue x (refusesPair x y) (fun t => carryOut (t.getV x) (t.getV y)) (fun t => add8 (t.getV x) (t.getV y))

/-- `8xy5` SUB Vx, Vy (R187). -/
def execSub (x y : Nibble) (s : State) : Host.Outcome State Fault Refusal :=
  s.flagThenValue x (refusesPair x y) (fun t => notBorrow (t.getV x) (t.getV y)) (fun t => sub8 (t.getV x) (t.getV y))

/-- `8xy6` SHR Vx (R188): y is not read (R193). -/
def execShr (x : Nibble) (s : State) : Host.Outcome State Fault Refusal :=
  s.flagThenValue x (refusesShift x) (fun t => lowBit (t.getV x)) (fun t => shr8 (t.getV x))

/-- `8xy7` SUBN Vx, Vy (R189). -/
def execSubn (x y : Nibble) (s : State) : Host.Outcome State Fault Refusal :=
  s.flagThenValue x (refusesPair x y) (fun t => notBorrow (t.getV y) (t.getV x)) (fun t => sub8 (t.getV y) (t.getV x))

/-- `8xyE` SHL Vx (R190): y is not read (R193). -/
def execShl (x : Nibble) (s : State) : Host.Outcome State Fault Refusal :=
  s.flagThenValue x (refusesShift x) (fun t => highBit (t.getV x)) (fun t => shl8 (t.getV x))

/-- `Cxkk` RND Vx, kk (R194): the drawn byte is a free value (log entry 3). -/
def execRnd (x : Nibble) (kk : Byte) (s : State) : Host.Outcome State Fault Refusal :=
  .next ((s.drawn.setV x (s.randomByte &&& kk)).advance)

end Sys2Proof.Machine
end

