-- ==== Sys2Proof/Machine/Operands.lean ====
section
/-! DEFINITION. Operand forms: effective addresses (R64, R65, R72), the key index (R252), the key wait's choice (R253,
R254), and 12-bit targets (R93). -/

namespace Sys2Proof.Machine

/-- `zext_16(nnn)` (R93). -/
def zext16 (nnn : Addr) : Word := nnn.zeroExtend 16

/-- Does EA fault on the address `a`? Then the answer is `a`, the info of AddressOutOfRange (R64). -/
def eaFault (pol : AddrPolicy) (a : Nat) : Option Nat :=
  match pol with
  | .wrap => none
  | .fault => if memSize ≤ a then some a else none

/-- The first fault among the `n` addresses `base`, `base + 1`, ...: the smallest offset is checked first (R72, R286). -/
def eaRangeFault (pol : AddrPolicy) (base n : Nat) : Option Nat :=
  (List.range n).findSome? (fun k => eaFault pol (base + k))

/-- An instruction that uses the `n` addresses from I on: every address is checked before anything is written, and the
instruction either faults or reaches `done` (R72, R107). -/
def State.withRange (s : State) (i : Instr) (n : Nat) (done : State) : Host.Outcome State Fault Refusal :=
  match eaRangeFault s.params.addrPolicy s.i.toNat n with
  | some a => .next (s.takeFault .addressOutOfRange (encode i) a)
  | none => .next done

/-- `KeyIndex(v)` (R252): the key, or none when the value raises AddressOutOfRange. -/
def keyIndex (pol : KeyIndexPolicy) (v : Byte) : Option Nibble :=
  if v.toNat < 16 then some (BitVec.ofNat 4 v.toNat)
  else
    match pol with
    | .fault => none
    | .mask => some (v.extractLsb' 0 4)

/-- keys[k] = 1 (R40). -/
def State.keyHeld (s : State) (k : Nibble) : Bool := s.keys.getLsbD k.toNat

/-- A skip on a key (R250, R251): skip when the key that V[x] names is held, if `whenHeld`, or is not held, if not. -/
def State.skipOnKey (s : State) (i : Instr) (x : Nibble) (whenHeld : Bool) : Host.Outcome State Fault Refusal :=
  match keyIndex s.params.keyIndexPolicy (s.getV x) with
  | some k => .next (s.skipIf (s.keyHeld k == whenHeld))
  | none => .next (s.takeFault .addressOutOfRange (encode i) (s.getV x).toNat)

/-- Does key `k` end a key wait: held, and under `edge` not held at the end of the previous cycle (R253)? -/
def State.keyQualifies (s : State) (k : Nibble) : Bool :=
  match s.params.keyTrigger with
  | .edge => s.keys.getLsbD k.toNat && !s.keyPrev.getLsbD k.toNat
  | .level => s.keys.getLsbD k.toNat

/-- The 16 keys in rising order. -/
def allKeys : List Nibble := (List.range 16).map (BitVec.ofNat 4)

/-- `min P` of R253: the lowest key that qualifies, none when P is empty (R254). -/
def State.waitKey (s : State) : Option Nibble := allKeys.find? (fun k => s.keyQualifies k)

/-- The address of the font glyph of the low nibble of `v` (R222). -/
def glyphAddr (v : Byte) : Word := BitVec.ofNat 16 (5 * (v.toNat % 16))

/-- The three decimal digits of `v`: hundreds, tens, ones (R223). -/
def bcdDigits (v : Byte) : List Byte :=
  [BitVec.ofNat 8 (v.toNat / 100), BitVec.ofNat 8 (v.toNat / 10 % 10), BitVec.ofNat 8 (v.toNat % 10)]

end Sys2Proof.Machine
end

