-- ==== Sys2Proof/Machine/ControlFlow.lean ====
section
/-! DEFINITION. Control flow and the stack controller (spec/41_control_flow.md). -/

namespace Sys2Proof.Machine

/-- `00EE` RET (R150): StackUnderflow on an empty stack; else pop into PC, with no further advance (R158). -/
def execRet (x : Nibble) (s : State) : Host.Outcome State Fault Refusal :=
  if s.sp.val = 0 then .next (s.takeFault .stackUnderflow (encode (.ret x)) 0)
  else .next (s.pop.setPc (s.stackAt s.pop.sp.val))

/-- `1nnn` JP nnn (R151). -/
def execJp (nnn : Addr) (s : State) : Host.Outcome State Fault Refusal :=
  .next (s.setPc (zext16 nnn))

/-- `2nnn` CALL nnn (R152): StackOverflow on a full stack; else push pc_next and jump. -/
def execCall (nnn : Addr) (s : State) : Host.Outcome State Fault Refusal :=
  if s.sp.val = stackDepth then .next (s.takeFault .stackOverflow (encode (.call nnn)) 0)
  else .next ((s.push s.pcNext).setPc (zext16 nnn))

/-- `3xkk` SE Vx, kk (R153). -/
def execSeImm (x : Nibble) (kk : Byte) (s : State) : Host.Outcome State Fault Refusal :=
  .next (s.skipIf (s.getV x == kk))

/-- `4xkk` SNE Vx, kk (R154). -/
def execSneImm (x : Nibble) (kk : Byte) (s : State) : Host.Outcome State Fault Refusal :=
  .next (s.skipIf (s.getV x != kk))

/-- `5xy0` SE Vx, Vy (R155). -/
def execSeReg (x y : Nibble) (s : State) : Host.Outcome State Fault Refusal :=
  .next (s.skipIf (s.getV x == s.getV y))

/-- `9xy0` SNE Vx, Vy (R156). -/
def execSneReg (x y : Nibble) (s : State) : Host.Outcome State Fault Refusal :=
  .next (s.skipIf (s.getV x != s.getV y))

/-- `Bnnn` JP V0, nnn (R157): PC holds the exact sum, 0x000 to 0x10FE. -/
def execJpV0 (nnn : Addr) (s : State) : Host.Outcome State Fault Refusal :=
  .next (s.setPc ((s.getV 0).zeroExtend 16 + zext16 nnn))

end Sys2Proof.Machine
end

