-- ==== Sys2Proof/Machine/Display.lean ====
section
/-! DEFINITION. Display instructions (spec/40_display.md). -/

namespace Sys2Proof.Machine

/-- `00E0` CLS (R130): every cell 0, redraw 1. -/
def execCls (s : State) : Host.Outcome State Fault Refusal :=
  .next ({ s with fb := Vector.replicate 32 0, redraw := true }.advance)

/-- The framebuffer and the collision after the sprite of Dxyn is composited: V[x], V[y], I and the sprite's bytes are
those of the state at the start (R131). -/
def State.drawSprite (s : State) (x y n : Nibble) : Drawing :=
  Drawing.sprite (s.getV x).toNat ⟨s.fb, false⟩ (s.getV y).toNat (s.readRun s.i.toNat n.toNat)

/-- The state after a Dxyn that does not fault: the framebuffer, then VF, redraw and PC (R131). -/
def State.composited (s : State) (d : Drawing) : State :=
  ({ s with fb := d.fb, redraw := true }.setV vf (flagByte d.collide)).advance

/-- `Dxyn` DRW Vx, Vy, n (R131): XOR an n-row sprite onto the framebuffer; VF is the collision. -/
def execDrw (x y n : Nibble) (s : State) : Host.Outcome State Fault Refusal :=
  s.withRange (.drw x y n) n.toNat (s.composited (s.drawSprite x y n))

end Sys2Proof.Machine
end

