-- ==== Sys2Proof/Machine/IndexMemory.lean ====
section
/-! DEFINITION. Index register and memory instructions (spec/43_index_memory.md). Fx33, Fx55 and Fx65 leave I unchanged
(R226). -/

namespace Sys2Proof.Machine

/-- `Annn` LD I, nnn (R220). -/
def execLdI (nnn : Addr) (s : State) : Host.Outcome State Fault Refusal :=
  .next ((s.setI (zext16 nnn)).advance)

/-- `Fx1E` ADD I, Vx (R221): modulo 65536, no flag. -/
def execAddI (x : Nibble) (s : State) : Host.Outcome State Fault Refusal :=
  .next ((s.setI (s.i + (s.getV x).zeroExtend 16)).advance)

/-- `Fx29` LD F, Vx (R222). -/
def execLdF (x : Nibble) (s : State) : Host.Outcome State Fault Refusal :=
  .next ((s.setI (glyphAddr (s.getV x))).advance)

/-- `Fx33` LD B, Vx (R223): the digits at I, I + 1, I + 2. -/
def execLdB (x : Nibble) (s : State) : Host.Outcome State Fault Refusal :=
  s.withRange (.ldB x) 3 ((s.writeMem s.i.toNat (bcdDigits (s.getV x))).advance)

/-- `Fx55` LD [I], Vx (R224): V0 to Vx at I to I + x. -/
def execStoreRegs (x : Nibble) (s : State) : Host.Outcome State Fault Refusal :=
  s.withRange (.storeRegs x) (x.toNat + 1) ((s.writeMem s.i.toNat (s.firstRegs (x.toNat + 1))).advance)

/-- `Fx65` LD Vx, [I] (R225): I to I + x into V0 to Vx. -/
def execLoadRegs (x : Nibble) (s : State) : Host.Outcome State Fault Refusal :=
  s.withRange (.loadRegs x) (x.toNat + 1) ((s.setRegsFrom 0 (s.readRun s.i.toNat (x.toNat + 1))).advance)

end Sys2Proof.Machine
end

