-- ==== Sys2Proof/Machine/KeysTimers.lean ====
section
/-! DEFINITION. Key and timer instructions (spec/44_keys_timers.md). -/

namespace Sys2Proof.Machine

/-- `Ex9E` SKP Vx (R250). -/
def execSkp (x : Nibble) (s : State) : Host.Outcome State Fault Refusal :=
  s.skipOnKey (.skp x) x true

/-- `ExA1` SKNP Vx (R251). -/
def execSknp (x : Nibble) (s : State) : Host.Outcome State Fault Refusal :=
  s.skipOnKey (.sknp x) x false

/-- `Fx07` LD Vx, DT (R256). -/
def execLdVxDt (x : Nibble) (s : State) : Host.Outcome State Fault Refusal :=
  .next ((s.setV x s.dt).advance)

/-- `Fx0A` LD Vx, K (R253): while no key qualifies PC does not advance, and the next cycle retries (R255). -/
def execLdVxK (x : Nibble) (s : State) : Host.Outcome State Fault Refusal :=
  match s.waitKey with
  | none => .next s
  | some k => .next ((s.setV x (k.zeroExtend 8)).advance)

/-- `Fx15` LD DT, Vx (R257). -/
def execLdDtVx (x : Nibble) (s : State) : Host.Outcome State Fault Refusal :=
  .next ((s.setDt (s.getV x)).advance)

/-- `Fx18` LD ST, Vx (R258). -/
def execLdStVx (x : Nibble) (s : State) : Host.Outcome State Fault Refusal :=
  .next ((s.setSt (s.getV x)).advance)

end Sys2Proof.Machine
end

