-- ==== Sys2Proof/Machine/HostActions.lean ====
section
/-! DEFINITION. The host's actions between cycles, except Cycle itself (spec/60_exceptions.md R320 to R324,
spec/70_reset_and_hazards.md R340 to R343). -/

namespace Sys2Proof.Machine

/-- `SetKeys(k)` (R321). -/
def State.setKeys (s : State) (k : BitVec 16) : State := { s with keys := k }

/-- `ClearRedraw` (R323). -/
def State.clearRedraw (s : State) : State := { s with redraw := false }

/-- `Quit` (R322): no fault record is written. -/
def State.quit (s : State) : State := { s with runState := .halted }

/-- Re-install the font at 0x000 to 0x04F (R340): with nothing listed there, memory reads as the font. -/
def Memory.installFont (m : Memory) : Memory := m.filter (fun c => decide (fontSize ≤ c.1))

/-- `Reset` (R340, R341). Not changed: memory from 0x050 on, keys, the two counters; and, of the model's own or not
state of the core, the parameters, the draw counter, the host's script and the results returned to the host. -/
def State.doReset (s : State) : State :=
  { s with
    v := Vector.replicate 16 0
    i := 0
    pc := 0x200
    sp := 0
    stack := Vector.replicate 32 0
    dt := 0
    st := 0
    fb := Vector.replicate 32 0
    redraw := false
    mem := Memory.installFont s.mem
    keyPrev := 0
    runState := .running
    faultCause := .none
    faultPc := 0
    faultOpcode := 0
    faultAddr := 0 }

/-- `LoadProgram(bytes)` (R342, R343): a longer image than 3584 bytes is rejected with no state changed; any other is
written from 0x200 on, and the core is reset. `lastLoad` is what the action returns. -/
def State.loadProgram (s : State) (bytes : List Byte) : State :=
  if progMax < bytes.length then { s with lastLoad := .loadRejected }
  else { (s.writeMem progBase bytes).doReset with lastLoad := .loadOk }

/-- What the host can read between actions (R324). DT is not an output. -/
structure HostView where
  /-- the framebuffer -/
  fb : Vector (BitVec 64) 32
  /-- the redraw flag -/
  redraw : Bool
  /-- the sound timer's value -/
  st : Byte
  /-- Running or Halted -/
  runState : RunState
  /-- the code of `fault_cause` (R280) -/
  faultCode : BitVec 3
  /-- `fault_pc` -/
  faultPc : Word
  /-- `fault_opcode` -/
  faultOpcode : Word
  /-- `fault_addr` -/
  faultAddr : BitVec 17
  /-- `cycle_count` -/
  cycleCount : Nat
  /-- `tick_count` -/
  tickCount : Nat
  /-- the result of the last cycle -/
  lastResult : CycleResult
deriving DecidableEq, Repr

/-- The outputs of the core (R324). -/
def State.hostView (s : State) : HostView where
  fb := s.fb
  redraw := s.redraw
  st := s.st
  runState := s.runState
  faultCode := s.faultCause.code
  faultPc := s.faultPc
  faultOpcode := s.faultOpcode
  faultAddr := s.faultAddr
  cycleCount := s.cycleCount
  tickCount := s.tickCount
  lastResult := s.lastResult

end Sys2Proof.Machine
end

