-- ==== Sys2Proof/Machine/Cycle.lean ====
section
/-! DEFINITION. The driver's cycle (spec/60_exceptions.md R311): fetch, decode, execute, then the tick and the key
sample; and the host's script of actions (R320). -/

namespace Sys2Proof.Machine

/-- What a fetch answers (R100). -/
inductive Fetched where
  /-- the opcode -/
  | opcode (op : Word)
  /-- AddressOutOfRange with this address -/
  | outOfRange (a : Nat)
deriving DecidableEq, Repr

/-- The opcode at PC, big-endian from EA(PC) and EA(PC + 1), the high byte's address checked first (R67, R71, R100). -/
def State.fetch (s : State) : Fetched :=
  match eaRangeFault s.params.addrPolicy s.pc.toNat 2 with
  | some a => .outOfRange a
  | none => .opcode (opOfBytes (s.memByte (memIndex s.pc.toNat)) (s.memByte (memIndex (s.pc.toNat + 1))))

/-- One less, floored at 0 (R300). -/
def countDown (b : Byte) : Byte := BitVec.ofNat 8 (b.toNat - 1)

/-- `Tick()` (R300). -/
def State.tick (s : State) : State :=
  { s with dt := countDown s.dt, st := countDown s.st, tickCount := s.tickCount + 1 }

/-- The sample of the keys and the count that end every cycle performed in Running (R41, R311). -/
def State.endCycle (s : State) : State := { s with keyPrev := s.keys, cycleCount := s.cycleCount + 1 }

/-- The cycle tail of R311: the tick when one is due, then the key sample and the count. A fault under ON_FAULT = halt
has halted the core, and then the rest of the cycle is not performed (R285). -/
def State.cycleTail (s : State) (tickDue : Bool) : State :=
  match s.runState with
  | .halted => s
  | .running => if tickDue then s.tick.endCycle else s.endCycle

/-- The state in which a cycle's instruction runs: its result is Ok until a fault says otherwise (R311). -/
def State.startCycle (s : State) : State := { s with lastResult := .ok }

/-- What the cycle tail makes of an execute stage's outcome. -/
def thenTail (tickDue : Bool) : Host.Outcome State Fault Refusal → Host.Outcome State Fault Refusal
  | .next t => .next (t.cycleTail tickDue)
  | .fault r => .fault r
  | .refused r => .refused r

/-- Fetch, decode and execute (R100, R101, R103): the instruction's outcome, or the fault of the fetch or of an invalid
opcode (R281, R286). -/
def State.execFetched (s : State) : Host.Outcome State Fault Refusal :=
  match s.fetch with
  | .outOfRange a => .next (s.takeFault .addressOutOfRange 0 a)
  | .opcode op =>
    match decodeOp s.params.decodeStrict op with
    | .invalid w => .next (s.takeFault .invalidInstruction w 0)
    | .instr i => exec i s

/-- `Cycle(tick_due)` (R310, R311). In Halted nothing is performed and the result is Halted. -/
def State.cycle (s : State) (tickDue : Bool) : Host.Outcome State Fault Refusal :=
  match s.runState with
  | .halted => .next { s with lastResult := .halted }
  | .running => thenTail tickDue s.startCycle.execFetched

/-- Perform one action of the host (R320). -/
def State.perform (s : State) : HostAction → Host.Outcome State Fault Refusal
  | .cycle tickDue => s.cycle tickDue
  | .setKeys k => .next (s.setKeys k)
  | .clearRedraw => .next s.clearRedraw
  | .quit => .next s.quit
  | .reset => .next s.doReset
  | .loadProgram bytes => .next (s.loadProgram bytes)

/-- The host's next action: the first of its script, or, when the script is empty, a Cycle whose `tick_due` is a free
value (R301; log entry 5). -/
def State.nextAction (s : State) : HostAction :=
  match s.script with
  | [] => .cycle (Config.tickDue s.cycleCount)
  | a :: _ => a

/-- The state with the host's next action taken off its script. -/
def State.popScript (s : State) : State := { s with script := s.script.tail }

/-- One step: the host's next action, performed. -/
def State.hostStep (s : State) : Host.Outcome State Fault Refusal := s.popScript.perform s.nextAction

/-- Is this action a Cycle? -/
def isCycle : HostAction → Bool
  | .cycle _ => true
  | .setKeys _ | .clearRedraw | .quit | .reset | .loadProgram _ => false

/-- Store the 16-bit value `op` where the next cycle fetches, and see that the very next step is a cycle that runs:
Running, and the host's actions before its next Cycle dropped. At State.reset only memory changes. -/
def State.placeOpcode (s : State) (op : Word) : State :=
  { s.writeMem s.pc.toNat [opHi op, opLo op] with
    runState := .running
    script := s.script.dropWhile (fun a => !isCycle a) }

end Sys2Proof.Machine
end

