-- ==== Sys2Proof/Machine/Step.lean ====
section
/-! DEFINITION. One step of the machine is one action of the host (R320), a Cycle (R311) unless its script says
otherwise. Everything it does is in Cycle.lean. -/

namespace Sys2Proof.Machine

/-- One step: the host's next action, performed. -/
def step (s : State) : Host.Outcome State Fault Refusal := s.hostStep

/-- `s` with the instruction whose bits are `w` stored where the next cycle fetches (R67, R100). -/
def State.withFetchWord (s : State) (nbits w : Nat) : State := s.placeOpcode (tableOp nbits w)

end Sys2Proof.Machine
end

