-- ==== Sys2Proof/Safety.lean ====
section
/-! DEFINITION. What statements call a good state and a good range of addresses, in the spec's terms. -/

namespace Sys2Proof.Machine

/-- Memory is in its canonical form (R60). -/
abbrev State.memCanonical (s : State) : Prop := Memory.wf s.params.font s.mem = true

/-- The fault record holds only what R38, R283 and R285 let it hold. -/
structure State.RecordLegal (s : State) : Prop where
  /-- under ON_FAULT = halt a running core has recorded no fault (R285) -/
  clean : s.params.onFault = .halt → s.runState = .running → s.faultCause = .none
  /-- without a fault the record is all 0 (R38, R45) -/
  none_zero : s.faultCause = .none → s.faultPc = 0 ∧ s.faultOpcode = 0 ∧ s.faultAddr = 0
  /-- only AddressOutOfRange records an address or a key value (R38, R280) -/
  other_zero : s.faultCause ≠ .addressOutOfRange → s.faultAddr = 0
  /-- which is a key value, 0x10 to 0xFF, or an address, 0x1000 to 0x1000E (R283) -/
  info_range : s.faultCause = .addressOutOfRange →
    (0x10 ≤ s.faultAddr.toNat ∧ s.faultAddr.toNat ≤ 0xFF) ∨ (0x1000 ≤ s.faultAddr.toNat ∧ s.faultAddr.toNat ≤ 0x1000E)

/-- At most one tick per cycle (R301): no more ticks than cycles have been counted. -/
abbrev State.ticksBounded (s : State) : Prop := s.tickCount ≤ s.cycleCount

/-- A safe run so far: no fault is recorded, the premise R285 asks for under ON_FAULT = halt. -/
def State.noFault (s : State) : Bool := s.faultCause == .none

/-- No address of the `n` from I on makes EA fault (R64, R72). -/
def State.rangeOk (s : State) (n : Nat) : Prop :=
  s.params.addrPolicy = .wrap ∨ n = 0 ∨ s.i.toNat + n ≤ memSize

/-- Offset `k` is the smallest of the `n` whose address I + k makes EA fault (R64, R72, R286). -/
def State.firstBad (s : State) (n k : Nat) : Prop :=
  s.params.addrPolicy = .fault ∧ k < n ∧ memSize ≤ s.i.toNat + k ∧ ∀ j < k, s.i.toNat + j < memSize

/-- What a precise fault leaves: the record of R284, PC and the run state by ON_FAULT (R285), and everything else as the
instruction found it. -/
def State.FaultedTo (s t : State) (cause : FaultCause) (op : Word) (info : Nat) : Prop :=
  t = { s with
    faultCause := cause
    faultPc := s.pc
    faultOpcode := op
    faultAddr := BitVec.ofNat 17 info
    lastResult := .fault cause
    runState := if s.params.onFault = .halt then .halted else s.runState
    pc := if s.params.onFault = .halt then s.pc else s.pc + 2 }

/-- What a Cycle asked of `s` leaves when it raises a fault under ON_FAULT = halt: the record of R284, Halted, and nothing
of the rest of the cycle, so no tick, no key sample and no count (R285). `info` is the info of R280. -/
def State.haltedBy (s : State) (cause : FaultCause) (op : Word) (info : Nat) : State :=
  { s with
    script := s.script.tail
    faultCause := cause
    faultPc := s.pc
    faultOpcode := op
    faultAddr := BitVec.ofNat 17 info
    lastResult := .fault cause
    runState := .halted }

/-- From `s` to `t`: what a Cycle(b) leaves when it raises a fault under ON_FAULT = skip: the record of R284, PC past the
instruction, the cycle tail of R311 with its tick where one is due, and nothing else (R285). -/
def State.SkippedTo (s t : State) (b : Bool) (cause : FaultCause) (op : Word) (info : Nat) : Prop :=
  t.dt.toNat = (if b then s.dt.toNat - 1 else s.dt.toNat) ∧
  t.st.toNat = (if b then s.st.toNat - 1 else s.st.toNat) ∧
  t = { s with
    script := s.script.tail
    faultCause := cause
    faultPc := s.pc
    faultOpcode := op
    faultAddr := BitVec.ofNat 17 info
    lastResult := .fault cause
    pc := s.pc + 2
    dt := t.dt
    st := t.st
    tickCount := if b then s.tickCount + 1 else s.tickCount
    keyPrev := s.keys
    cycleCount := s.cycleCount + 1 }

/-- From `s` to `t`: register x becomes `b`, PC advances by 2, and nothing else changes: no other register, no byte of
memory, no other field (R104). -/
def State.WritesReg (s t : State) (x : Nibble) (b : Byte) : Prop :=
  t.getV x = b ∧ (∀ z, z ≠ x → t.getV z = s.getV z) ∧ (∀ a, t.memByte a = s.memByte a) ∧
    t = { s with v := t.v, pc := s.pc + 2 }

/-- From `s` to `t`: register x becomes `b`; VF becomes `flag`, but for x = F, where the value written second remains; PC
advances by 2, and nothing else changes (R106). -/
def State.WritesFlagAndReg (s t : State) (x : Nibble) (flag b : Byte) : Prop :=
  t.getV x = b ∧ (x ≠ 0xF → t.getV 0xF = flag) ∧ (∀ z, z ≠ x → z ≠ 0xF → t.getV z = s.getV z) ∧
    (∀ a, t.memByte a = s.memByte a) ∧ t = { s with v := t.v, pc := s.pc + 2 }

/-- Instruction i does in `s` what it does where VF_OPERAND is `latched` and nothing else differs: the rules as written
(R191). -/
def State.RunsAsLatched (s : State) (i : Instr) : Prop :=
  ∃ t, exec i { s with params := { s.params with vfOperand := .latched } } = .next t ∧
    exec i s = .next { t with params := s.params }

/-- From `s` to `t`: PC becomes `w`, and nothing else changes. -/
def State.WritesPc (s t : State) (w : Word) : Prop := t = { s with pc := w }

/-- The set bits of a sprite land on column X, row Y: row r of the sprite, column c of it, bit 7 - c (R131, R132, R134). -/
def State.spriteCovers (s : State) (x y n : Nibble) (X Y : Nat) : Prop :=
  ∃ r < n.toNat, ∃ c < 8, (s.memByte (memIndex (s.i.toNat + r))).getLsbD (7 - c) = true ∧
    X = ((s.getV x).toNat + c) % 64 ∧ Y = ((s.getV y).toNat + r) % 32

end Sys2Proof.Machine
end

