-- ==== Sys2Proof/Certificates/Slice0/Obligations.lean ====
section
/-! DEFINITION. The statements for the provers. Each docstring names the rules of spec/ that the statement formalises. -/

open Sys2Proof Sys2Proof.Machine

/-! Encoding, decoding and fetch (spec/30_encoding.md, spec/20_memory.md) -/

/-- R92, R96, R97, R101: decoding the word, or the two bytes, of a well-formed instruction gives it back, with every
operand at every value, under both values of DECODE_STRICT. Rests on the spec's own decision D6. -/
def Obligations.DecodeOfEncode : Prop :=
  ∀ (strict : Bool) (i : Instr), wellFormed strict i = true →
    decodeOp strict (encode i) = .instr i ∧
    ∀ rest, decodeBytes strict (encodeBytes i ++ rest) = .instr i rest

/-- R90, R96, R97, R101: a word that decodes to an instruction is the encoding of that instruction, and the instruction
is well-formed; a word that does not is the one the verdict names. That no bit is lost is the model's own way of
keeping the nibbles that have no effect (DEDUCED, log entry 16), and the loose half, with `wellFormed false`, rests on
R97, the spec's own decision D6. -/
def Obligations.EncodeOfDecode : Prop :=
  ∀ (strict : Bool) (op : Word),
    (∀ i, decodeOp strict op = .instr i → encode i = op ∧ wellFormed strict i = true) ∧
    (∀ w, decodeOp strict op = .invalid w → w = op)

/-- R96, and R97 under the loose decode: an opcode decodes to the row whose (op AND mask) = match; no two rows overlap;
an opcode that matches no row is Invalid. The loose half rests on the spec's own decision D6 (log entry 16). -/
def Obligations.OpcodeMapDecides : Prop :=
  ∀ (strict : Bool) (op : Word),
    (∀ (n : Nat) (r : Word × Word), (opcodeMap strict)[n]? = some r → op &&& r.1 = r.2 →
      ∃ i, decodeOp strict op = .instr i ∧ rowOf i = n) ∧
    (∀ (n m : Nat) (q r : Word × Word), (opcodeMap strict)[n]? = some q → (opcodeMap strict)[m]? = some r →
      op &&& q.1 = q.2 → op &&& r.1 = r.2 → n = m) ∧
    ((∀ r ∈ opcodeMap strict, op &&& r.1 ≠ r.2) → decodeOp strict op = .invalid op)

/-- R98 (its table, not its counts): which opcodes of each family are invalid. Rests on the spec's own decision D6. -/
def Obligations.InvalidOpcodesByFamily : Prop :=
  ∀ (strict : Bool) (op : Word), decodeOp strict op = .invalid op ↔
    (opFamily op = 0x0 ∧ ¬((opKk op = 0xE0 ∨ opKk op = 0xEE) ∧ (strict = true → opX op = 0))) ∨
    (opFamily op = 0x5 ∧ strict = true ∧ opN op ≠ 0) ∨
    (opFamily op = 0x8 ∧ opN op ∈ [0x8#4, 0x9#4, 0xA#4, 0xB#4, 0xC#4, 0xD#4, 0xF#4]) ∨
    (opFamily op = 0x9 ∧ strict = true ∧ opN op ≠ 0) ∨
    (opFamily op = 0xE ∧ opKk op ∉ [0x9E#8, 0xA1#8]) ∨
    (opFamily op = 0xF ∧ opKk op ∉ [0x07#8, 0x0A#8, 0x15#8, 0x18#8, 0x1E#8, 0x29#8, 0x33#8, 0x55#8, 0x65#8])

/-- R96: words written out from the opcode map decode to the instructions they stand for, one or more per file of
instructions, and a word outside the map is refused. -/
def Obligations.SpecWordsDecode : Prop :=
  decodeTableWord 16 0x00E0 = some (.cls 0) ∧
  decodeTableWord 16 0xD015 = some (.drw 0 1 5) ∧
  decodeTableWord 16 0x2300 = some (.call 0x300) ∧
  decodeTableWord 16 0x00EE = some (.ret 0) ∧
  decodeTableWord 16 0x8AB5 = some (.sub 0xA 0xB) ∧
  decodeTableWord 16 0x84E6 = some (.shr 0x4 0xE) ∧
  decodeTableWord 16 0xA2F0 = some (.ldI 0x2F0) ∧
  decodeTableWord 16 0xF533 = some (.ldB 5) ∧
  decodeTableWord 16 0xE19E = some (.skp 1) ∧
  decodeTableWord 16 0xF30A = some (.ldVxK 3) ∧
  decodeTableWord 16 0x0123 = none

/-- R67, R71, R100: the fetch is big-endian from EA(PC) and EA(PC + 1); under ADDR_POLICY = fault it raises
AddressOutOfRange(0x1000) at PC = 0x0FFF, and AddressOutOfRange(PC) for PC of 0x1000 or more. Rests on the spec's own
decision D2. -/
def Obligations.FetchReadsBigEndian : Prop :=
  ∀ s : State,
    (s.params.addrPolicy = .wrap ∨ s.pc.toNat < 0xFFF →
      ∃ op, s.fetch = .opcode op ∧
        op.toNat = 256 * (s.memByte (s.pc.toNat % 4096)).toNat + (s.memByte ((s.pc.toNat + 1) % 4096)).toNat) ∧
    (s.params.addrPolicy = .fault → s.pc.toNat = 0xFFF → s.fetch = .outOfRange 0x1000) ∧
    (s.params.addrPolicy = .fault → 0x1000 ≤ s.pc.toNat → s.fetch = .outOfRange s.pc.toNat)

/-- R83: the next fetch sees the bytes written before it, whoever wrote them. Rests on the spec's own decision D27. -/
def Obligations.FetchSeesEarlierWrites : Prop :=
  ∀ (s : State) (op : Word), s.params.addrPolicy = .wrap ∨ s.pc.toNat < 0xFFF →
    (s.writeMem s.pc.toNat [opHi op, opLo op]).fetch = .opcode op

/-! The cycle (spec/60_exceptions.md) -/

/-- R100, R103, R311: when the two bytes at PC decode to an instruction and the host's next action is a Cycle of a
running core, the step is exec of that instruction, on the state whose script has lost that action and whose result is
Ok, followed by the cycle tail. -/
def Obligations.StepRunsDecodedInstruction : Prop :=
  ∀ (s : State) (b : Bool) (i : Instr),
    s.runState = .running → s.nextAction = .cycle b →
    s.params.addrPolicy = .wrap ∨ s.pc.toNat < 0xFFF →
    decodeBytes s.params.decodeStrict
      [s.memByte (s.pc.toNat % 4096), s.memByte ((s.pc.toNat + 1) % 4096)] = .instr i [] →
    step s = thenTail b (exec i { s with script := s.script.tail, lastResult := .ok })

/-- R285, R300, R311: the tail of a cycle whose instruction leaves the core running: the tick when one is due, each timer
one less and floored at 0; then the key sample and the count; and nothing else. After an instruction that leaves it
halted, as every fault does under ON_FAULT = halt, the tail is not performed: no tick, no key sample, no count. Rests on
the spec's own decisions D3, D9, D19, D20 (log entries 5, 11, 12, 21). -/
def Obligations.CycleTailTicksAndCounts : Prop :=
  ∀ (u : State) (b : Bool),
    (u.runState = .running → ∃ t, thenTail b (.next u) = .next t ∧
      t.dt.toNat = (if b then u.dt.toNat - 1 else u.dt.toNat) ∧
      t.st.toNat = (if b then u.st.toNat - 1 else u.st.toNat) ∧
      t.tickCount = (if b then u.tickCount + 1 else u.tickCount) ∧
      t = { u with dt := t.dt, st := t.st, tickCount := t.tickCount, keyPrev := u.keys, cycleCount := u.cycleCount + 1 }) ∧
    (u.runState = .halted → thenTail b (.next u) = .next u)

/-- R310: a cycle asked of a halted core changes nothing, and its result is Halted. Rests on the spec's own decision
D19. -/
def Obligations.HaltedCycleChangesNothing : Prop :=
  ∀ (s : State) (b : Bool), s.runState = .halted → s.nextAction = .cycle b →
    step s = .next { s with script := s.script.tail, lastResult := .halted }

/-- R281, R282, R283, R284, R285 (halt): a cycle whose fetch faults, whose opcode is invalid, or whose instruction raises
a fault of its own, records the fault and halts, and the rest of the cycle is not performed: no tick, no key sample, no
count. An instruction has raised a fault when exec's answer carries a result that is not Ok; its cause and info are those
that answer records. Rests on the spec's own
decisions D3, D4, D5 (log entries 10, 11). -/
def Obligations.HaltingFaultEndsCycle : Prop :=
  ∀ (s : State) (b : Bool), s.runState = .running → s.nextAction = .cycle b → s.params.onFault = .halt →
    (∀ a, s.fetch = .outOfRange a → step s = .next (s.haltedBy .addressOutOfRange 0 a)) ∧
    (∀ op, s.fetch = .opcode op → decodeOp s.params.decodeStrict op = .invalid op →
      step s = .next (s.haltedBy .invalidInstruction op 0)) ∧
    (∀ op i u, s.fetch = .opcode op → decodeOp s.params.decodeStrict op = .instr i →
      exec i { s with script := s.script.tail, lastResult := .ok } = .next u → u.lastResult ≠ .ok →
      step s = .next (s.haltedBy u.faultCause op u.faultAddr.toNat))

/-- R281, R282, R283, R284, R285 (skip): the same three cycles record the fault, pass over the instruction and perform the
cycle tail, and nothing else: the whole next state. Rests on the spec's own decisions D3, D4, D5 (log entries 10, 11). -/
def Obligations.SkippedFaultRunsTail : Prop :=
  ∀ (s : State) (b : Bool), s.runState = .running → s.nextAction = .cycle b → s.params.onFault = .skip →
    (∀ a, s.fetch = .outOfRange a → ∃ t, step s = .next t ∧ s.SkippedTo t b .addressOutOfRange 0 a) ∧
    (∀ op, s.fetch = .opcode op → decodeOp s.params.decodeStrict op = .invalid op →
      ∃ t, step s = .next t ∧ s.SkippedTo t b .invalidInstruction op 0) ∧
    (∀ op i u, s.fetch = .opcode op → decodeOp s.params.decodeStrict op = .instr i →
      exec i { s with script := s.script.tail, lastResult := .ok } = .next u → u.lastResult ≠ .ok →
      ∃ t, step s = .next t ∧ s.SkippedTo t b u.faultCause op u.faultAddr.toNat)

/-- R107: an instruction either completes or raises one fault and writes nothing but the fault's own effect: if its
result is a fault, the state is the precise fault of R284 and R285 and nothing else. Rests on the spec's own decisions
D3, D4, D5 (log entries 10, 11). -/
def Obligations.InstructionFaultsArePrecise : Prop :=
  ∀ (i : Instr) (s t : State), s.lastResult = .ok → exec i s = .next t → t.lastResult ≠ .ok →
    ∃ cause info, s.FaultedTo t cause (encode i) info

/-! Display (spec/40_display.md) -/

/-- R130: CLS, under either decode: every cell 0, redraw 1, PC advanced, nothing else changed. -/
def Obligations.ClsClearsFramebuffer : Prop :=
  ∀ (s : State) (x : Nibble), ∃ t, exec (.cls x) s = .next t ∧ (∀ p < 2048, t.cell p = false) ∧
    (∀ a, t.memByte a = s.memByte a) ∧ t = { s with fb := t.fb, redraw := true, pc := s.pc + 2 }

/-- R131, R132, R133, R134: DRW, when no address is out of range: the cell of column X and row Y changes exactly when a
set bit of the sprite lands on it; VF is 1 exactly when such a cell held 1; redraw is 1; and nothing else changes. The
sprite, its place and I are those before the draw, x = F and y = F included. Where a set bit lands rests on the bit and
cell order, PRESUMED (D13, log entry 9), and on the latched operands of DRW, the spec's own decision D14 (log entry
21). -/
def Obligations.DrwComposites : Prop :=
  ∀ (s : State) (x y n : Nibble), s.rangeOk n.toNat → ∃ t, exec (.drw x y n) s = .next t ∧
    (∀ X < 64, ∀ Y < 32, t.cell (Y * 64 + X) ≠ s.cell (Y * 64 + X) ↔ s.spriteCovers x y n X Y) ∧
    ((∃ X < 64, ∃ Y < 32, s.spriteCovers x y n X Y ∧ s.cell (Y * 64 + X) = true) → t.getV 0xF = 1) ∧
    ((¬∃ X < 64, ∃ Y < 32, s.spriteCovers x y n X Y ∧ s.cell (Y * 64 + X) = true) → t.getV 0xF = 0) ∧
    (∀ z, z ≠ 0xF → t.getV z = s.getV z) ∧ (∀ a, t.memByte a = s.memByte a) ∧
    t = { s with v := t.v, fb := t.fb, redraw := true, pc := s.pc + 2 }

/-- R131, R132, R133, R134: a sprite drawn twice at one place, with no change of the framebuffer between, restores the
framebuffer. The second draw reports a collision exactly when a set bit lands on a cell that held 0 before the first
draw, and so holds 1 before the second: R131 and R133's own rule of collision (DEDUCED, log entry 15). R133's last
sentence but one says so of every sprite with a set bit, which is false of a sprite all of whose cells held 1 at first.
Where a set bit lands rests on the bit and cell order, PRESUMED (D13, log entry 9), and on the latched operands of DRW,
the spec's own decision D14 (log entry 21). -/
def Obligations.DrawTwiceRestores : Prop :=
  ∀ (s t u : State) (x y x' y' n : Nibble), s.rangeOk n.toNat → u.rangeOk n.toNat →
    exec (.drw x y n) s = .next t → u.fb = t.fb → u.getV x' = s.getV x → u.getV y' = s.getV y →
    (∀ r < n.toNat, u.memByte (memIndex (u.i.toNat + r)) = s.memByte (memIndex (s.i.toNat + r))) →
    ∃ w, exec (.drw x' y' n) u = .next w ∧ w.fb = s.fb ∧
      (w.getV 0xF = 1 ↔ ∃ X < 64, ∃ Y < 32, s.spriteCovers x y n X Y ∧ s.cell (Y * 64 + X) = false) ∧
      (w.getV 0xF = 0 ∨ w.getV 0xF = 1)

/-- R72, R131, R223, R224, R225, R284, R285, R286: under ADDR_POLICY = fault, the four instructions that reach memory
fault on the smallest offset whose address is out of range, before they write anything. Rests on the spec's own
decisions D2, D3, D4, D5 (log entries 10, 11, 20). -/
def Obligations.BadAddressFaultsPrecisely : Prop :=
  ∀ (s : State) (k : Nat),
    (∀ x y n, s.firstBad n.toNat k → ∃ t, exec (.drw x y n) s = .next t ∧
      s.FaultedTo t .addressOutOfRange (encode (.drw x y n)) (s.i.toNat + k)) ∧
    (∀ x, s.firstBad 3 k → ∃ t, exec (.ldB x) s = .next t ∧
      s.FaultedTo t .addressOutOfRange (encode (.ldB x)) (s.i.toNat + k)) ∧
    (∀ x : Nibble, s.firstBad (x.toNat + 1) k → ∃ t, exec (.storeRegs x) s = .next t ∧
      s.FaultedTo t .addressOutOfRange (encode (.storeRegs x)) (s.i.toNat + k)) ∧
    (∀ x : Nibble, s.firstBad (x.toNat + 1) k → ∃ t, exec (.loadRegs x) s = .next t ∧
      s.FaultedTo t .addressOutOfRange (encode (.loadRegs x)) (s.i.toNat + k))

/-- R34, R35, R135: no instruction but CLS and DRW writes the framebuffer or the redraw flag, and no step but the host's
ClearRedraw, Reset or LoadProgram clears the flag. -/
def Obligations.OnlyDisplayInstructionsDraw : Prop :=
  (∀ (i : Instr) (s t : State), (∀ x, i ≠ .cls x) → (∀ x y n, i ≠ .drw x y n) → exec i s = .next t →
    t.fb = s.fb ∧ t.redraw = s.redraw) ∧
  (∀ (s t : State) (b : Bool), s.nextAction = .cycle b → step s = .next t → s.redraw = true → t.redraw = true)

/-! Control flow (spec/41_control_flow.md) -/

/-- R150, R158: RET pops the top entry into PC with no further advance; on an empty stack it raises StackUnderflow,
precisely (R284, R285). Rests on the spec's own decisions D12 (no further advance; log entry 13), D3, D4 and D5 (what a
fault leaves; log entries 10, 11). -/
def Obligations.RetPopsOrUnderflows : Prop :=
  ∀ (s : State) (x : Nibble),
    (s.sp.val ≠ 0 → ∃ t, exec (.ret x) s = .next t ∧ t.sp.val = s.sp.val - 1 ∧ t.pc = s.stackAt (s.sp.val - 1) ∧
      (∀ a, t.memByte a = s.memByte a) ∧ t = { s with sp := t.sp, pc := t.pc }) ∧
    (s.sp.val = 0 → ∃ t, exec (.ret x) s = .next t ∧ s.FaultedTo t .stackUnderflow (encode (.ret x)) 0)

/-- R152, R158: CALL pushes pc_next and jumps; on a full stack it raises StackOverflow, precisely (R284, R285). Rests
on the spec's own decisions D12 (the value pushed; log entry 13), D3, D4 and D5 (what a fault leaves; log entries 10,
11). -/
def Obligations.CallPushesOrOverflows : Prop :=
  ∀ (s : State) (nnn : Addr),
    (s.sp.val ≠ 32 → ∃ t, exec (.call nnn) s = .next t ∧ t.sp.val = s.sp.val + 1 ∧
      t.stackAt s.sp.val = s.pc + 2 ∧ (∀ j, j ≠ s.sp.val → t.stackAt j = s.stackAt j) ∧ t.pc.toNat = nnn.toNat ∧
      (∀ a, t.memByte a = s.memByte a) ∧ t = { s with stack := t.stack, sp := t.sp, pc := t.pc }) ∧
    (s.sp.val = 32 → ∃ t, exec (.call nnn) s = .next t ∧ s.FaultedTo t .stackOverflow (encode (.call nnn)) 0)

/-- R158: a return whose stack is the one a call left lands on the instruction after the call. Rests on the spec's own
decision D12. -/
def Obligations.CallThenReturnLandsAfterCall : Prop :=
  ∀ (s t u : State) (nnn : Addr) (x : Nibble), s.sp.val ≠ 32 → exec (.call nnn) s = .next t →
    u.stack = t.stack → u.sp = t.sp → ∃ w, exec (.ret x) u = .next w ∧ w.pc = s.pc + 2 ∧ w.sp = s.sp

/-- R151, R157: the two jumps: PC is nnn, or exactly V0 + nnn, and nothing else changes. -/
def Obligations.JumpsSetPc : Prop :=
  ∀ (s : State) (nnn : Addr),
    (∃ t, exec (.jp nnn) s = .next t ∧ t.pc.toNat = nnn.toNat ∧ s.WritesPc t t.pc ∧
      ∀ a, t.memByte a = s.memByte a) ∧
    (∃ t, exec (.jpV0 nnn) s = .next t ∧ t.pc.toNat = (s.getV 0).toNat + nnn.toNat ∧ s.WritesPc t t.pc ∧
      ∀ a, t.memByte a = s.memByte a)

/-- R153, R154, R155, R156: the register skips: PC + 4 when the condition holds, PC + 2 otherwise, and nothing else
changes. -/
def Obligations.RegisterSkipsCompare : Prop :=
  ∀ (s : State) (x y n : Nibble) (kk : Byte),
    (∃ t, exec (.seImm x kk) s = .next t ∧ s.WritesPc t (if s.getV x = kk then s.pc + 4 else s.pc + 2)) ∧
    (∃ t, exec (.sneImm x kk) s = .next t ∧ s.WritesPc t (if s.getV x ≠ kk then s.pc + 4 else s.pc + 2)) ∧
    (∃ t, exec (.seReg x y n) s = .next t ∧ s.WritesPc t (if s.getV x = s.getV y then s.pc + 4 else s.pc + 2)) ∧
    (∃ t, exec (.sneReg x y n) s = .next t ∧ s.WritesPc t (if s.getV x ≠ s.getV y then s.pc + 4 else s.pc + 2))

/-- R29, R30: no instruction but CALL writes the stack, and CALL writes no entry but the one at SP; no instruction but
CALL and RET writes SP. -/
def Obligations.OnlyCallWritesStack : Prop :=
  ∀ (i : Instr) (s t : State), exec i s = .next t →
    ((∀ nnn, i ≠ .call nnn) → t.stack = s.stack) ∧ (∀ j, j ≠ s.sp.val → t.stackAt j = s.stackAt j) ∧
    ((∀ nnn, i ≠ .call nnn) → (∀ x, i ≠ .ret x) → t.sp = s.sp)

/-! Register load, arithmetic and logic (spec/42_alu.md) -/

/-- R180, R182, R183, R184, R185: load, copy, OR, AND, XOR: the value, bit by bit for the logic, in Vx; VF only as Vx. -/
def Obligations.LoadAndLogicResults : Prop :=
  ∀ (s : State) (x y : Nibble) (kk : Byte),
    (∃ t, exec (.ldImm x kk) s = .next t ∧ s.WritesReg t x kk) ∧
    (∃ t, exec (.ldReg x y) s = .next t ∧ s.WritesReg t x (s.getV y)) ∧
    (∃ t, exec (.orReg x y) s = .next t ∧ s.WritesReg t x (t.getV x) ∧
      ∀ j < 8, (t.getV x).getLsbD j = ((s.getV x).getLsbD j || (s.getV y).getLsbD j)) ∧
    (∃ t, exec (.andReg x y) s = .next t ∧ s.WritesReg t x (t.getV x) ∧
      ∀ j < 8, (t.getV x).getLsbD j = ((s.getV x).getLsbD j && (s.getV y).getLsbD j)) ∧
    (∃ t, exec (.xorReg x y) s = .next t ∧ s.WritesReg t x (t.getV x) ∧
      ∀ j < 8, (t.getV x).getLsbD j = ((s.getV x).getLsbD j != (s.getV y).getLsbD j))

/-- R181: ADD Vx, kk: the sum modulo 256, and no flag. -/
def Obligations.AddImmediateWraps : Prop :=
  ∀ (s : State) (x : Nibble) (kk : Byte), ∃ t, exec (.addImm x kk) s = .next t ∧
    (t.getV x).toNat = ((s.getV x).toNat + kk.toNat) % 256 ∧ s.WritesReg t x (t.getV x)

/-- R186, R191: ADD Vx, Vy, where the reading of VF as an operand does not matter or is `latched`: the sum modulo 256 in
Vx and the carry in VF, the value remaining when x = F. -/
def Obligations.AddRegistersCarry : Prop :=
  ∀ (s : State) (x y : Nibble), s.params.vfOperand = .latched ∨ (x ≠ 0xF ∧ y ≠ 0xF) →
    ∃ t, exec (.addReg x y) s = .next t ∧
      (t.getV x).toNat = ((s.getV x).toNat + (s.getV y).toNat) % 256 ∧
      s.WritesFlagAndReg t x (if (s.getV x).toNat + (s.getV y).toNat > 255 then 1 else 0) (t.getV x)

/-- R187, R189, R191: SUB and SUBN under the same condition: the difference modulo 256 in Vx and the not-borrow in VF. -/
def Obligations.SubtractionsNotBorrow : Prop :=
  ∀ (s : State) (x y : Nibble), s.params.vfOperand = .latched ∨ (x ≠ 0xF ∧ y ≠ 0xF) →
    (∃ t, exec (.sub x y) s = .next t ∧
      ((t.getV x).toNat + (s.getV y).toNat) % 256 = (s.getV x).toNat ∧
      s.WritesFlagAndReg t x (if (s.getV x).toNat ≥ (s.getV y).toNat then 1 else 0) (t.getV x)) ∧
    (∃ t, exec (.subn x y) s = .next t ∧
      ((t.getV x).toNat + (s.getV x).toNat) % 256 = (s.getV y).toNat ∧
      s.WritesFlagAndReg t x (if (s.getV y).toNat ≥ (s.getV x).toNat then 1 else 0) (t.getV x))

/-- R188, R190, R191, R193: SHR and SHL, for every y: Vx halved or doubled modulo 256, and the bit shifted out in VF. -/
def Obligations.ShiftsPutBitOut : Prop :=
  ∀ (s : State) (x y : Nibble), s.params.vfOperand = .latched ∨ x ≠ 0xF →
    (∃ t, exec (.shr x y) s = .next t ∧ (t.getV x).toNat = (s.getV x).toNat / 2 ∧
      s.WritesFlagAndReg t x (BitVec.ofNat 8 ((s.getV x).toNat % 2)) (t.getV x)) ∧
    (∃ t, exec (.shl x y) s = .next t ∧ (t.getV x).toNat = 2 * (s.getV x).toNat % 256 ∧
      s.WritesFlagAndReg t x (BitVec.ofNat 8 ((s.getV x).toNat / 128)) (t.getV x))

/-- R191 (sequential): the flag is computed from the registers as they were; the result from Vx and Vy read again after
the flag write. Rests on the spec's own decision D7. -/
def Obligations.SequentialReadsAfterFlag : Prop :=
  ∀ (s : State) (x y : Nibble), s.params.vfOperand = .sequential →
    (∃ t, exec (.addReg x y) s = .next t ∧ ∃ f : Byte,
      f = (if (s.getV x).toNat + (s.getV y).toNat > 255 then 1 else 0) ∧ s.WritesFlagAndReg t x f (t.getV x) ∧
      (t.getV x).toNat = ((if x = 0xF then f else s.getV x).toNat + (if y = 0xF then f else s.getV y).toNat) % 256) ∧
    (∃ t, exec (.sub x y) s = .next t ∧ ∃ f : Byte,
      f = (if (s.getV x).toNat ≥ (s.getV y).toNat then 1 else 0) ∧ s.WritesFlagAndReg t x f (t.getV x) ∧
      ((t.getV x).toNat + (if y = 0xF then f else s.getV y).toNat) % 256 = (if x = 0xF then f else s.getV x).toNat) ∧
    (∃ t, exec (.subn x y) s = .next t ∧ ∃ f : Byte,
      f = (if (s.getV y).toNat ≥ (s.getV x).toNat then 1 else 0) ∧ s.WritesFlagAndReg t x f (t.getV x) ∧
      ((t.getV x).toNat + (if x = 0xF then f else s.getV x).toNat) % 256 = (if y = 0xF then f else s.getV y).toNat) ∧
    (∃ t, exec (.shr x y) s = .next t ∧ ∃ f : Byte,
      f = BitVec.ofNat 8 ((s.getV x).toNat % 2) ∧ s.WritesFlagAndReg t x f (t.getV x) ∧
      (t.getV x).toNat = (if x = 0xF then f else s.getV x).toNat / 2) ∧
    (∃ t, exec (.shl x y) s = .next t ∧ ∃ f : Byte,
      f = BitVec.ofNat 8 ((s.getV x).toNat / 128) ∧ s.WritesFlagAndReg t x f (t.getV x) ∧
      (t.getV x).toNat = 2 * (if x = 0xF then f else s.getV x).toNat % 256)

/-- R191 (refuse): under R191's list the five instructions are refused when VF is an operand they read; under D7's list
8xy4, 8xy5 and 8xy7 are when y = F; and nothing else is refused under either. That both lists are kept, because the spec's
two texts differ, is the model's choice (DESIGN CHOICE, log entry 6). -/
def Obligations.RefusePolicyRefusesVfOperands : Prop :=
  ∀ (s : State) (x y : Nibble),
    (s.params.vfOperand = .refuse .anyOperand →
      (x = 0xF ∨ y = 0xF → exec (.addReg x y) s = .refused .vfOperand ∧ exec (.sub x y) s = .refused .vfOperand ∧
        exec (.subn x y) s = .refused .vfOperand) ∧
      (x = 0xF → exec (.shr x y) s = .refused .vfOperand ∧ exec (.shl x y) s = .refused .vfOperand) ∧
      (∀ (i : Instr) (r : Refusal), exec i s = .refused r → r = .vfOperand ∧ ∃ z w : Nibble, (z = 0xF ∨ w = 0xF) ∧
        (i = .addReg z w ∨ i = .sub z w ∨ i = .subn z w ∨ (z = 0xF ∧ (i = .shr z w ∨ i = .shl z w))))) ∧
    (s.params.vfOperand = .refuse .onlyY →
      (y = 0xF → exec (.addReg x y) s = .refused .vfOperand ∧ exec (.sub x y) s = .refused .vfOperand ∧
        exec (.subn x y) s = .refused .vfOperand) ∧
      (∀ (i : Instr) (r : Refusal), exec i s = .refused r → r = .vfOperand ∧
        ∃ z : Nibble, i = .addReg z 0xF ∨ i = .sub z 0xF ∨ i = .subn z 0xF))

/-- R191 (refuse): a form that the list in force does not name runs as the rules are written, as under `latched`: the five
instructions with VF no operand, and, under D7's list, with x = F and y not F and every shift too. That both lists are
kept is the model's choice (DESIGN CHOICE, log entry 6). -/
def Obligations.UnlistedFormsRunAsWritten : Prop :=
  ∀ (s : State) (l : RefuseList) (x y : Nibble), s.params.vfOperand = .refuse l →
    (y ≠ 0xF → (l = .anyOperand → x ≠ 0xF) →
      s.RunsAsLatched (.addReg x y) ∧ s.RunsAsLatched (.sub x y) ∧ s.RunsAsLatched (.subn x y)) ∧
    ((l = .anyOperand → x ≠ 0xF) → s.RunsAsLatched (.shr x y) ∧ s.RunsAsLatched (.shl x y))

/-- R194, R195: RND: a drawn byte masked by kk, so that a bit that is 0 in kk is 0 in Vx; the draw is counted, so that
the next one is another. The byte drawn is a free value (log entry 3), and the statement holds for every value of it.
Rests on the spec's own decision D28. -/
def Obligations.RndMasksADraw : Prop :=
  ∀ (s : State) (x : Nibble) (kk : Byte), ∃ t, exec (.rnd x kk) s = .next t ∧
    (∀ j < 8, (t.getV x).getLsbD j = ((Config.randomByte s.draws).getLsbD j && kk.getLsbD j)) ∧
    (∀ z, z ≠ x → t.getV z = s.getV z) ∧ (∀ a, t.memByte a = s.memByte a) ∧
    t = { s with v := t.v, draws := s.draws + 1, pc := s.pc + 2 }

/-- R22, R192: whenever 8xy4 to 8xyE with x other than F, or a DRW that does not fault, answers a next state, VF is
exactly 0 or 1, under every value of VF_OPERAND. -/
def Obligations.FlagIsZeroOrOne : Prop :=
  ∀ (s t : State) (x y n : Nibble),
    (x ≠ 0xF → (exec (.addReg x y) s = .next t ∨ exec (.sub x y) s = .next t ∨ exec (.shr x y) s = .next t ∨
      exec (.subn x y) s = .next t ∨ exec (.shl x y) s = .next t) → t.getV 0xF = 0 ∨ t.getV 0xF = 1) ∧
    (s.rangeOk n.toNat → exec (.drw x y n) s = .next t → t.getV 0xF = 0 ∨ t.getV 0xF = 1)

/-- R23: an instruction that R23 does not list as writing a V register writes none. -/
def Obligations.OnlyListedInstructionsWriteRegisters : Prop :=
  ∀ (s t : State) (x y n : Nibble) (nnn : Addr) (kk : Byte) (i : Instr),
    i ∈ [Instr.cls x, .ret x, .jp nnn, .call nnn, .seImm x kk, .sneImm x kk, .seReg x y n, .sneReg x y n, .ldI nnn,
      .jpV0 nnn, .skp x, .sknp x, .ldDtVx x, .ldStVx x, .addI x, .ldF x, .ldB x, .storeRegs x] →
    exec i s = .next t → ∀ z, t.getV z = s.getV z

/-! Index register and memory (spec/43_index_memory.md) -/

/-- R220, R221, R222: the three writes of I, each with the default advance and nothing else changed. -/
def Obligations.IndexWrites : Prop :=
  ∀ (s : State) (x : Nibble) (nnn : Addr),
    (∃ t, exec (.ldI nnn) s = .next t ∧ t.i.toNat = nnn.toNat ∧ t = { s with i := t.i, pc := s.pc + 2 }) ∧
    (∃ t, exec (.addI x) s = .next t ∧ t.i.toNat = (s.i.toNat + (s.getV x).toNat) % 65536 ∧
      t = { s with i := t.i, pc := s.pc + 2 }) ∧
    (∃ t, exec (.ldF x) s = .next t ∧ t.i.toNat = 5 * ((s.getV x).toNat % 16) ∧
      t = { s with i := t.i, pc := s.pc + 2 })

/-- R223, R226: LD B, Vx: the three bytes from I on are the decimal digits of Vx, hundreds first; every other byte, I and
everything else but PC is unchanged. -/
def Obligations.BcdStoresDigits : Prop :=
  ∀ (s : State) (x : Nibble), s.rangeOk 3 → ∃ t, exec (.ldB x) s = .next t ∧
    (∃ h d o : Nat, h ≤ 2 ∧ d ≤ 9 ∧ o ≤ 9 ∧ 100 * h + 10 * d + o = (s.getV x).toNat ∧
      (t.memByte (s.i.toNat % 4096)).toNat = h ∧ (t.memByte ((s.i.toNat + 1) % 4096)).toNat = d ∧
      (t.memByte ((s.i.toNat + 2) % 4096)).toNat = o) ∧
    (∀ a, (∀ k < 3, (s.i.toNat + k) % 4096 ≠ a) → t.memByte a = s.memByte a) ∧
    t = { s with mem := t.mem, pc := s.pc + 2 }

/-- R224, R226: LD [I], Vx: V0 to Vx at I to I + x; every other byte, I and everything else but PC is unchanged. -/
def Obligations.StoreRegistersWritesBlock : Prop :=
  ∀ (s : State) (x : Nibble), s.rangeOk (x.toNat + 1) → ∃ t, exec (.storeRegs x) s = .next t ∧
    (∀ k : Nibble, k ≤ x → t.memByte ((s.i.toNat + k.toNat) % 4096) = s.getV k) ∧
    (∀ a, (∀ k ≤ x.toNat, (s.i.toNat + k) % 4096 ≠ a) → t.memByte a = s.memByte a) ∧
    t = { s with mem := t.mem, pc := s.pc + 2 }

/-- R225, R226: LD Vx, [I]: I to I + x into V0 to Vx; the registers above Vx, memory, I and everything else but PC are
unchanged. -/
def Obligations.LoadRegistersReadsBlock : Prop :=
  ∀ (s : State) (x : Nibble), s.rangeOk (x.toNat + 1) → ∃ t, exec (.loadRegs x) s = .next t ∧
    (∀ k : Nibble, k ≤ x → t.getV k = s.memByte ((s.i.toNat + k.toNat) % 4096)) ∧
    (∀ k : Nibble, x < k → t.getV k = s.getV k) ∧ (∀ a, t.memByte a = s.memByte a) ∧
    t = { s with v := t.v, pc := s.pc + 2 }

/-- R227: Fx55 followed by Fx65 with the same x and I, and those bytes not written between, restores V0 to Vx. -/
def Obligations.StoreThenLoadRestores : Prop :=
  ∀ (s t u : State) (x : Nibble), s.rangeOk (x.toNat + 1) → u.rangeOk (x.toNat + 1) →
    exec (.storeRegs x) s = .next t → u.i = s.i →
    (∀ k ≤ x.toNat, u.memByte ((s.i.toNat + k) % 4096) = t.memByte ((s.i.toNat + k) % 4096)) →
    ∃ w, exec (.loadRegs x) u = .next w ∧ ∀ k : Nibble, k ≤ x → w.getV k = s.getV k

/-- R61, R63: no instruction but LD B, Vx and LD [I], Vx writes memory. -/
def Obligations.OnlyStoresWriteMemory : Prop :=
  ∀ (i : Instr) (s t : State), (∀ x, i ≠ .ldB x) → (∀ x, i ≠ .storeRegs x) → exec i s = .next t →
    ∀ a, t.memByte a = s.memByte a

/-! Keys and timers (spec/44_keys_timers.md) -/

/-- R250, R251, R252: the key skips: on a key below 16, or on the low nibble of a larger value under KEY_INDEX_POLICY =
mask, they skip by that key's state; on a larger value under `fault` they raise AddressOutOfRange with the value,
precisely (R284, R285). Rests on the spec's own decisions D11 (log entry 20), D3, D4 and D5 (log entries 10, 11). -/
def Obligations.KeySkipsFollowKey : Prop :=
  ∀ (s : State) (x : Nibble),
    ((s.getV x).toNat < 16 ∨ s.params.keyIndexPolicy = .mask →
      (∃ t, exec (.skp x) s = .next t ∧
        s.WritesPc t (if s.keys.getLsbD ((s.getV x).toNat % 16) = true then s.pc + 4 else s.pc + 2)) ∧
      (∃ t, exec (.sknp x) s = .next t ∧
        s.WritesPc t (if s.keys.getLsbD ((s.getV x).toNat % 16) = false then s.pc + 4 else s.pc + 2))) ∧
    (16 ≤ (s.getV x).toNat → s.params.keyIndexPolicy = .fault →
      (∃ t, exec (.skp x) s = .next t ∧
        s.FaultedTo t .addressOutOfRange (encode (.skp x)) (s.getV x).toNat) ∧
      (∃ t, exec (.sknp x) s = .next t ∧
        s.FaultedTo t .addressOutOfRange (encode (.sknp x)) (s.getV x).toNat))

/-- R253, R254: the key wait: while no key qualifies nothing changes, PC included; when some do, Vx receives the lowest
one's index. Under `edge` a key qualifies that is held and was not held at the end of the previous cycle; under
`level`, one that is held. Rests on the spec's own decisions D8, D9, D10. -/
def Obligations.KeyWaitTakesLowestKey : Prop :=
  ∀ (s : State) (x : Nibble) (P : Nat → Prop),
    (∀ k, P k ↔ s.keys.getLsbD k = true ∧ (s.params.keyTrigger = .edge → s.keyPrev.getLsbD k = false)) →
    ((∀ k < 16, ¬P k) → exec (.ldVxK x) s = .next s) ∧
    (∀ k < 16, P k → (∀ j < k, ¬P j) → ∃ t, exec (.ldVxK x) s = .next t ∧ s.WritesReg t x (BitVec.ofNat 8 k))

/-- R256, R257, R258: the three timer moves; and a tick in the same cycle takes 1 from a timer just written, floored at
0. -/
def Obligations.TimerMoves : Prop :=
  ∀ (s : State) (x : Nibble) (b : Bool),
    (∃ t, exec (.ldVxDt x) s = .next t ∧ s.WritesReg t x s.dt) ∧
    (∃ t, exec (.ldDtVx x) s = .next t ∧ t = { s with dt := s.getV x, pc := s.pc + 2 }) ∧
    (∃ t, exec (.ldStVx x) s = .next t ∧ t = { s with st := s.getV x, pc := s.pc + 2 }) ∧
    (s.runState = .running →
      (∃ t, thenTail b (exec (.ldDtVx x) s) = .next t ∧
        t.dt.toNat = (if b then (s.getV x).toNat - 1 else (s.getV x).toNat)) ∧
      (∃ t, thenTail b (exec (.ldStVx x) s) = .next t ∧
        t.st.toNat = (if b then (s.getV x).toNat - 1 else (s.getV x).toNat)))

/-- R25, R32, R33: I is written by no instruction but Annn, Fx1E and Fx29, DT by none but Fx15, ST by none but Fx18. -/
def Obligations.IndexAndTimersHaveTheirWriters : Prop :=
  ∀ (i : Instr) (s t : State), exec i s = .next t →
    ((∀ nnn, i ≠ .ldI nnn) → (∀ x, i ≠ .addI x) → (∀ x, i ≠ .ldF x) → t.i = s.i) ∧
    ((∀ x, i ≠ .ldDtVx x) → t.dt = s.dt) ∧ ((∀ x, i ≠ .ldStVx x) → t.st = s.st)

/-- R353: Fx15 in one cycle and Fx07 in the next: it reads Vx less 1, floored at 0, if the Fx15 cycle had a tick, and
Vx if it had none. Rests on the spec's own decision D19. -/
def Obligations.TickFollowsTimerWrite : Prop :=
  ∀ (s : State) (b : Bool) (x y : Nibble), s.runState = .running →
    ∃ t, thenTail b (exec (.ldDtVx x) s) = .next t ∧ ∃ u, exec (.ldVxDt y) t = .next u ∧
      (u.getV y).toNat = (if b then (s.getV x).toNat - 1 else (s.getV x).toNat)

/-! Host actions, reset and load (spec/60_exceptions.md, spec/70_reset_and_hazards.md) -/

/-- R321, R322, R323: SetKeys, Quit and ClearRedraw change their one piece of state and nothing else. Rests on the
spec's own decision D18. -/
def Obligations.HostActionsChangeOnlyTheirs : Prop :=
  ∀ (s : State) (rest : List HostAction),
    (∀ k, s.script = .setKeys k :: rest → step s = .next { s with script := rest, keys := k }) ∧
    (s.script = .quit :: rest → step s = .next { s with script := rest, runState := .halted }) ∧
    (s.script = .clearRedraw :: rest → step s = .next { s with script := rest, redraw := false })

/-- R45, R340, R341: Reset, from Running or Halted: every value R45 gives; memory is the font at 0x000 to 0x04F and
unchanged above it; keys and the two counters are unchanged. Rests on the spec's own decisions D16, D17. -/
def Obligations.ResetReinitializes : Prop :=
  ∀ (s : State) (rest : List HostAction), s.script = .reset :: rest → ∃ t, step s = .next t ∧
    (∀ x, t.getV x = 0) ∧ t.i = 0 ∧ t.pc = 0x200 ∧ t.sp = 0 ∧ (∀ j < 32, t.stackAt j = 0) ∧ t.dt = 0 ∧ t.st = 0 ∧
    (∀ p < 2048, t.cell p = false) ∧ t.redraw = false ∧ t.keyPrev = 0 ∧ t.runState = .running ∧
    t.faultCause = .none ∧ t.faultPc = 0 ∧ t.faultOpcode = 0 ∧ t.faultAddr = 0 ∧
    (∀ (a : Nat) (h : a < 80), t.memByte a = s.params.font[a]) ∧ (∀ a, 80 ≤ a → t.memByte a = s.memByte a) ∧
    t.keys = s.keys ∧ t.cycleCount = s.cycleCount ∧ t.tickCount = s.tickCount

/-- R342, R343: LoadProgram of at most 3584 bytes writes them from 0x200 on, leaves the bytes after them as they were,
and performs a Reset (its state is the one that Reset gives of the state with the bytes written); of more, it is
rejected and no state changes. Rests on the spec's own decision D21. -/
def Obligations.LoadProgramLoadsOrRejects : Prop :=
  ∀ (s : State) (bytes : List Byte) (rest : List HostAction), s.script = .loadProgram bytes :: rest →
    (bytes.length ≤ 3584 → ∃ t, step s = .next t ∧ t.lastLoad = .loadOk ∧
      (∀ (k : Nat) (h : k < bytes.length), t.memByte (0x200 + k) = bytes[k]) ∧
      (∀ (a : Nat) (h : a < 80), t.memByte a = s.params.font[a]) ∧
      (∀ a, 80 ≤ a → a < 0x200 ∨ 0x200 + bytes.length ≤ a → t.memByte a = s.memByte a) ∧
      step { s.writeMem 0x200 bytes with script := .reset :: rest } = .next { t with lastLoad := s.lastLoad }) ∧
    (3584 < bytes.length → step s = .next { s with script := rest, lastLoad := .loadRejected })

/-- R45, R46: the power-on state: every value of R45, keys 0, both counters 0, and the default font (PRESUMED, log
entry 4) at 0x000 to 0x04F; above it, memory reads as the free value INIT_MEM (log entry 2). Rests on the spec's own
decisions D5, D15, D16, D17, D18, D20 (log entries 2, 4, 7, 10, 21). -/
def Obligations.PowerOnState : Prop :=
  (∀ x, State.reset.getV x = 0) ∧ State.reset.i = 0 ∧ State.reset.pc = 0x200 ∧ State.reset.sp = 0 ∧
  (∀ j < 32, State.reset.stackAt j = 0) ∧
  State.reset.dt = 0 ∧ State.reset.st = 0 ∧ (∀ p < 2048, State.reset.cell p = false) ∧
  State.reset.redraw = false ∧ State.reset.keys = 0 ∧ State.reset.keyPrev = 0 ∧ State.reset.runState = .running ∧
  State.reset.faultCause = .none ∧ State.reset.faultPc = 0 ∧ State.reset.faultOpcode = 0 ∧ State.reset.faultAddr = 0 ∧
  State.reset.cycleCount = 0 ∧ State.reset.tickCount = 0 ∧
  (∀ (a : Nat) (h : a < 80), State.reset.memByte a = standardFont[a]) ∧
  (∀ a, 80 ≤ a → State.reset.memByte a = Config.initMem a)

/-- R40: no step but the host's SetKeys changes the key input. -/
def Obligations.OnlySetKeysChangesKeys : Prop :=
  ∀ s t : State, (∀ k, s.nextAction ≠ .setKeys k) → step s = .next t → t.keys = s.keys

/-- R293: no cycle leaves Halted: a step from Halted to Running is a Reset or a LoadProgram of at most 3584 bytes.
Rests on the spec's own decision D18. -/
def Obligations.OnlyResetOrLoadLeavesHalted : Prop :=
  ∀ s t : State, s.runState = .halted → step s = .next t → t.runState = .running →
    s.nextAction = .reset ∨ ∃ bytes, s.nextAction = .loadProgram bytes ∧ bytes.length ≤ 3584

/-- R39: the counters never decrease; Reset and LoadProgram do not clear them; both are 0 at power-on; and a step
counts one cycle exactly when it performs one in Running that does not halt on a fault. Rests on the spec's own
decision D20. -/
def Obligations.CountersNeverDecrease : Prop :=
  State.reset.cycleCount = 0 ∧ State.reset.tickCount = 0 ∧
  ∀ s t : State, step s = .next t →
    s.cycleCount ≤ t.cycleCount ∧ s.tickCount ≤ t.tickCount ∧
    ((∀ b, s.nextAction ≠ .cycle b) → t.cycleCount = s.cycleCount ∧ t.tickCount = s.tickCount) ∧
    (∀ b, s.nextAction = .cycle b → s.runState = .running →
      t.cycleCount = (if t.runState = .halted then s.cycleCount else s.cycleCount + 1))

/-- R43: no step changes a parameter. -/
def Obligations.ParametersNeverChange : Prop :=
  ∀ s t : State, step s = .next t → t.params = s.params

/-! Invariants and the whole machine -/

/-- R60, R66: every step keeps memory in its canonical form: its addresses strictly rising, below 4096, and none listed
with what an unlisted address reads as. -/
def Obligations.MemoryStaysCanonical : Prop :=
  ∀ s t : State, s.memCanonical → step s = .next t → t.memCanonical

/-- R38, R283, R285: every step keeps the fault record legal. Rests on the spec's own decisions D3, D5, D11. -/
def Obligations.FaultRecordStaysLegal : Prop :=
  ∀ s t : State, s.RecordLegal → step s = .next t → t.RecordLegal

/-- R301: every step keeps the ticks counted at most the cycles counted: at most one tick is applied per cycle. Rests
on the spec's own decision D19. -/
def Obligations.TicksStayBounded : Prop :=
  ∀ s t : State, s.ticksBounded → step s = .next t → t.ticksBounded

/-- R45, R46: the three invariants hold at reset. -/
def Obligations.InvariantsHoldAtReset : Prop :=
  State.reset.memCanonical ∧ State.reset.RecordLegal ∧ State.reset.ticksBounded

/-- R101, R310, R311: every step answers a next state, whatever memory holds, but for what VF_OPERAND = refuse refuses
(R191): a run never gets stuck, and a fault of the spec is a next state. Rests on the spec's own decisions D3, D18. -/
def Obligations.StepAlwaysAnswers : Prop :=
  ∀ s : State, ((∀ l, s.params.vfOperand ≠ .refuse l) → ∃ t, step s = .next t) ∧
    ((∃ t, step s = .next t) ∨ step s = .refused .vfOperand)
end

