-- ==== Sys2Proof/Laws/State.lean ====
section
/-! SUPPORT. One lemma per field per update of the state: what the update leaves in the field. The updates without a
condition are true by rfl; the four with one (skipIf, push, takeFault, cycleTail) say the field for both sides. -/

namespace Sys2Proof.Machine

variable (s : State)

/-! setV -/

@[simp] theorem State.setV_v (x : Nibble) (b : Byte) : (s.setV x b).v = s.v.set x.toNat b := rfl
@[simp] theorem State.setV_i (x : Nibble) (b : Byte) : (s.setV x b).i = s.i := rfl
@[simp] theorem State.setV_pc (x : Nibble) (b : Byte) : (s.setV x b).pc = s.pc := rfl
@[simp] theorem State.setV_stack (x : Nibble) (b : Byte) : (s.setV x b).stack = s.stack := rfl
@[simp] theorem State.setV_sp (x : Nibble) (b : Byte) : (s.setV x b).sp = s.sp := rfl
@[simp] theorem State.setV_dt (x : Nibble) (b : Byte) : (s.setV x b).dt = s.dt := rfl
@[simp] theorem State.setV_st (x : Nibble) (b : Byte) : (s.setV x b).st = s.st := rfl
@[simp] theorem State.setV_mem (x : Nibble) (b : Byte) : (s.setV x b).mem = s.mem := rfl
@[simp] theorem State.setV_fb (x : Nibble) (b : Byte) : (s.setV x b).fb = s.fb := rfl
@[simp] theorem State.setV_redraw (x : Nibble) (b : Byte) : (s.setV x b).redraw = s.redraw := rfl
@[simp] theorem State.setV_keys (x : Nibble) (b : Byte) : (s.setV x b).keys = s.keys := rfl
@[simp] theorem State.setV_keyPrev (x : Nibble) (b : Byte) : (s.setV x b).keyPrev = s.keyPrev := rfl
@[simp] theorem State.setV_runState (x : Nibble) (b : Byte) : (s.setV x b).runState = s.runState := rfl
@[simp] theorem State.setV_faultCause (x : Nibble) (b : Byte) : (s.setV x b).faultCause = s.faultCause := rfl
@[simp] theorem State.setV_faultPc (x : Nibble) (b : Byte) : (s.setV x b).faultPc = s.faultPc := rfl
@[simp] theorem State.setV_faultOpcode (x : Nibble) (b : Byte) : (s.setV x b).faultOpcode = s.faultOpcode := rfl
@[simp] theorem State.setV_faultAddr (x : Nibble) (b : Byte) : (s.setV x b).faultAddr = s.faultAddr := rfl
@[simp] theorem State.setV_cycleCount (x : Nibble) (b : Byte) : (s.setV x b).cycleCount = s.cycleCount := rfl
@[simp] theorem State.setV_tickCount (x : Nibble) (b : Byte) : (s.setV x b).tickCount = s.tickCount := rfl
@[simp] theorem State.setV_lastResult (x : Nibble) (b : Byte) : (s.setV x b).lastResult = s.lastResult := rfl
@[simp] theorem State.setV_lastLoad (x : Nibble) (b : Byte) : (s.setV x b).lastLoad = s.lastLoad := rfl
@[simp] theorem State.setV_params (x : Nibble) (b : Byte) : (s.setV x b).params = s.params := rfl
@[simp] theorem State.setV_draws (x : Nibble) (b : Byte) : (s.setV x b).draws = s.draws := rfl
@[simp] theorem State.setV_script (x : Nibble) (b : Byte) : (s.setV x b).script = s.script := rfl

/-! setI -/

@[simp] theorem State.setI_v (w : Word) : (s.setI w).v = s.v := rfl
@[simp] theorem State.setI_i (w : Word) : (s.setI w).i = w := rfl
@[simp] theorem State.setI_pc (w : Word) : (s.setI w).pc = s.pc := rfl
@[simp] theorem State.setI_stack (w : Word) : (s.setI w).stack = s.stack := rfl
@[simp] theorem State.setI_sp (w : Word) : (s.setI w).sp = s.sp := rfl
@[simp] theorem State.setI_dt (w : Word) : (s.setI w).dt = s.dt := rfl
@[simp] theorem State.setI_st (w : Word) : (s.setI w).st = s.st := rfl
@[simp] theorem State.setI_mem (w : Word) : (s.setI w).mem = s.mem := rfl
@[simp] theorem State.setI_fb (w : Word) : (s.setI w).fb = s.fb := rfl
@[simp] theorem State.setI_redraw (w : Word) : (s.setI w).redraw = s.redraw := rfl
@[simp] theorem State.setI_keys (w : Word) : (s.setI w).keys = s.keys := rfl
@[simp] theorem State.setI_keyPrev (w : Word) : (s.setI w).keyPrev = s.keyPrev := rfl
@[simp] theorem State.setI_runState (w : Word) : (s.setI w).runState = s.runState := rfl
@[simp] theorem State.setI_faultCause (w : Word) : (s.setI w).faultCause = s.faultCause := rfl
@[simp] theorem State.setI_faultPc (w : Word) : (s.setI w).faultPc = s.faultPc := rfl
@[simp] theorem State.setI_faultOpcode (w : Word) : (s.setI w).faultOpcode = s.faultOpcode := rfl
@[simp] theorem State.setI_faultAddr (w : Word) : (s.setI w).faultAddr = s.faultAddr := rfl
@[simp] theorem State.setI_cycleCount (w : Word) : (s.setI w).cycleCount = s.cycleCount := rfl
@[simp] theorem State.setI_tickCount (w : Word) : (s.setI w).tickCount = s.tickCount := rfl
@[simp] theorem State.setI_lastResult (w : Word) : (s.setI w).lastResult = s.lastResult := rfl
@[simp] theorem State.setI_lastLoad (w : Word) : (s.setI w).lastLoad = s.lastLoad := rfl
@[simp] theorem State.setI_params (w : Word) : (s.setI w).params = s.params := rfl
@[simp] theorem State.setI_draws (w : Word) : (s.setI w).draws = s.draws := rfl
@[simp] theorem State.setI_script (w : Word) : (s.setI w).script = s.script := rfl

/-! setDt -/

@[simp] theorem State.setDt_v (b : Byte) : (s.setDt b).v = s.v := rfl
@[simp] theorem State.setDt_i (b : Byte) : (s.setDt b).i = s.i := rfl
@[simp] theorem State.setDt_pc (b : Byte) : (s.setDt b).pc = s.pc := rfl
@[simp] theorem State.setDt_stack (b : Byte) : (s.setDt b).stack = s.stack := rfl
@[simp] theorem State.setDt_sp (b : Byte) : (s.setDt b).sp = s.sp := rfl
@[simp] theorem State.setDt_dt (b : Byte) : (s.setDt b).dt = b := rfl
@[simp] theorem State.setDt_st (b : Byte) : (s.setDt b).st = s.st := rfl
@[simp] theorem State.setDt_mem (b : Byte) : (s.setDt b).mem = s.mem := rfl
@[simp] theorem State.setDt_fb (b : Byte) : (s.setDt b).fb = s.fb := rfl
@[simp] theorem State.setDt_redraw (b : Byte) : (s.setDt b).redraw = s.redraw := rfl
@[simp] theorem State.setDt_keys (b : Byte) : (s.setDt b).keys = s.keys := rfl
@[simp] theorem State.setDt_keyPrev (b : Byte) : (s.setDt b).keyPrev = s.keyPrev := rfl
@[simp] theorem State.setDt_runState (b : Byte) : (s.setDt b).runState = s.runState := rfl
@[simp] theorem State.setDt_faultCause (b : Byte) : (s.setDt b).faultCause = s.faultCause := rfl
@[simp] theorem State.setDt_faultPc (b : Byte) : (s.setDt b).faultPc = s.faultPc := rfl
@[simp] theorem State.setDt_faultOpcode (b : Byte) : (s.setDt b).faultOpcode = s.faultOpcode := rfl
@[simp] theorem State.setDt_faultAddr (b : Byte) : (s.setDt b).faultAddr = s.faultAddr := rfl
@[simp] theorem State.setDt_cycleCount (b : Byte) : (s.setDt b).cycleCount = s.cycleCount := rfl
@[simp] theorem State.setDt_tickCount (b : Byte) : (s.setDt b).tickCount = s.tickCount := rfl
@[simp] theorem State.setDt_lastResult (b : Byte) : (s.setDt b).lastResult = s.lastResult := rfl
@[simp] theorem State.setDt_lastLoad (b : Byte) : (s.setDt b).lastLoad = s.lastLoad := rfl
@[simp] theorem State.setDt_params (b : Byte) : (s.setDt b).params = s.params := rfl
@[simp] theorem State.setDt_draws (b : Byte) : (s.setDt b).draws = s.draws := rfl
@[simp] theorem State.setDt_script (b : Byte) : (s.setDt b).script = s.script := rfl

/-! setSt -/

@[simp] theorem State.setSt_v (b : Byte) : (s.setSt b).v = s.v := rfl
@[simp] theorem State.setSt_i (b : Byte) : (s.setSt b).i = s.i := rfl
@[simp] theorem State.setSt_pc (b : Byte) : (s.setSt b).pc = s.pc := rfl
@[simp] theorem State.setSt_stack (b : Byte) : (s.setSt b).stack = s.stack := rfl
@[simp] theorem State.setSt_sp (b : Byte) : (s.setSt b).sp = s.sp := rfl
@[simp] theorem State.setSt_dt (b : Byte) : (s.setSt b).dt = s.dt := rfl
@[simp] theorem State.setSt_st (b : Byte) : (s.setSt b).st = b := rfl
@[simp] theorem State.setSt_mem (b : Byte) : (s.setSt b).mem = s.mem := rfl
@[simp] theorem State.setSt_fb (b : Byte) : (s.setSt b).fb = s.fb := rfl
@[simp] theorem State.setSt_redraw (b : Byte) : (s.setSt b).redraw = s.redraw := rfl
@[simp] theorem State.setSt_keys (b : Byte) : (s.setSt b).keys = s.keys := rfl
@[simp] theorem State.setSt_keyPrev (b : Byte) : (s.setSt b).keyPrev = s.keyPrev := rfl
@[simp] theorem State.setSt_runState (b : Byte) : (s.setSt b).runState = s.runState := rfl
@[simp] theorem State.setSt_faultCause (b : Byte) : (s.setSt b).faultCause = s.faultCause := rfl
@[simp] theorem State.setSt_faultPc (b : Byte) : (s.setSt b).faultPc = s.faultPc := rfl
@[simp] theorem State.setSt_faultOpcode (b : Byte) : (s.setSt b).faultOpcode = s.faultOpcode := rfl
@[simp] theorem State.setSt_faultAddr (b : Byte) : (s.setSt b).faultAddr = s.faultAddr := rfl
@[simp] theorem State.setSt_cycleCount (b : Byte) : (s.setSt b).cycleCount = s.cycleCount := rfl
@[simp] theorem State.setSt_tickCount (b : Byte) : (s.setSt b).tickCount = s.tickCount := rfl
@[simp] theorem State.setSt_lastResult (b : Byte) : (s.setSt b).lastResult = s.lastResult := rfl
@[simp] theorem State.setSt_lastLoad (b : Byte) : (s.setSt b).lastLoad = s.lastLoad := rfl
@[simp] theorem State.setSt_params (b : Byte) : (s.setSt b).params = s.params := rfl
@[simp] theorem State.setSt_draws (b : Byte) : (s.setSt b).draws = s.draws := rfl
@[simp] theorem State.setSt_script (b : Byte) : (s.setSt b).script = s.script := rfl

/-! setPc -/

@[simp] theorem State.setPc_v (w : Word) : (s.setPc w).v = s.v := rfl
@[simp] theorem State.setPc_i (w : Word) : (s.setPc w).i = s.i := rfl
@[simp] theorem State.setPc_pc (w : Word) : (s.setPc w).pc = w := rfl
@[simp] theorem State.setPc_stack (w : Word) : (s.setPc w).stack = s.stack := rfl
@[simp] theorem State.setPc_sp (w : Word) : (s.setPc w).sp = s.sp := rfl
@[simp] theorem State.setPc_dt (w : Word) : (s.setPc w).dt = s.dt := rfl
@[simp] theorem State.setPc_st (w : Word) : (s.setPc w).st = s.st := rfl
@[simp] theorem State.setPc_mem (w : Word) : (s.setPc w).mem = s.mem := rfl
@[simp] theorem State.setPc_fb (w : Word) : (s.setPc w).fb = s.fb := rfl
@[simp] theorem State.setPc_redraw (w : Word) : (s.setPc w).redraw = s.redraw := rfl
@[simp] theorem State.setPc_keys (w : Word) : (s.setPc w).keys = s.keys := rfl
@[simp] theorem State.setPc_keyPrev (w : Word) : (s.setPc w).keyPrev = s.keyPrev := rfl
@[simp] theorem State.setPc_runState (w : Word) : (s.setPc w).runState = s.runState := rfl
@[simp] theorem State.setPc_faultCause (w : Word) : (s.setPc w).faultCause = s.faultCause := rfl
@[simp] theorem State.setPc_faultPc (w : Word) : (s.setPc w).faultPc = s.faultPc := rfl
@[simp] theorem State.setPc_faultOpcode (w : Word) : (s.setPc w).faultOpcode = s.faultOpcode := rfl
@[simp] theorem State.setPc_faultAddr (w : Word) : (s.setPc w).faultAddr = s.faultAddr := rfl
@[simp] theorem State.setPc_cycleCount (w : Word) : (s.setPc w).cycleCount = s.cycleCount := rfl
@[simp] theorem State.setPc_tickCount (w : Word) : (s.setPc w).tickCount = s.tickCount := rfl
@[simp] theorem State.setPc_lastResult (w : Word) : (s.setPc w).lastResult = s.lastResult := rfl
@[simp] theorem State.setPc_lastLoad (w : Word) : (s.setPc w).lastLoad = s.lastLoad := rfl
@[simp] theorem State.setPc_params (w : Word) : (s.setPc w).params = s.params := rfl
@[simp] theorem State.setPc_draws (w : Word) : (s.setPc w).draws = s.draws := rfl
@[simp] theorem State.setPc_script (w : Word) : (s.setPc w).script = s.script := rfl

/-! advance -/

@[simp] theorem State.advance_v : s.advance.v = s.v := rfl
@[simp] theorem State.advance_i : s.advance.i = s.i := rfl
@[simp] theorem State.advance_pc : s.advance.pc = s.pc + 2 := rfl
@[simp] theorem State.advance_stack : s.advance.stack = s.stack := rfl
@[simp] theorem State.advance_sp : s.advance.sp = s.sp := rfl
@[simp] theorem State.advance_dt : s.advance.dt = s.dt := rfl
@[simp] theorem State.advance_st : s.advance.st = s.st := rfl
@[simp] theorem State.advance_mem : s.advance.mem = s.mem := rfl
@[simp] theorem State.advance_fb : s.advance.fb = s.fb := rfl
@[simp] theorem State.advance_redraw : s.advance.redraw = s.redraw := rfl
@[simp] theorem State.advance_keys : s.advance.keys = s.keys := rfl
@[simp] theorem State.advance_keyPrev : s.advance.keyPrev = s.keyPrev := rfl
@[simp] theorem State.advance_runState : s.advance.runState = s.runState := rfl
@[simp] theorem State.advance_faultCause : s.advance.faultCause = s.faultCause := rfl
@[simp] theorem State.advance_faultPc : s.advance.faultPc = s.faultPc := rfl
@[simp] theorem State.advance_faultOpcode : s.advance.faultOpcode = s.faultOpcode := rfl
@[simp] theorem State.advance_faultAddr : s.advance.faultAddr = s.faultAddr := rfl
@[simp] theorem State.advance_cycleCount : s.advance.cycleCount = s.cycleCount := rfl
@[simp] theorem State.advance_tickCount : s.advance.tickCount = s.tickCount := rfl
@[simp] theorem State.advance_lastResult : s.advance.lastResult = s.lastResult := rfl
@[simp] theorem State.advance_lastLoad : s.advance.lastLoad = s.lastLoad := rfl
@[simp] theorem State.advance_params : s.advance.params = s.params := rfl
@[simp] theorem State.advance_draws : s.advance.draws = s.draws := rfl
@[simp] theorem State.advance_script : s.advance.script = s.script := rfl

/-! pop -/

@[simp] theorem State.pop_v : s.pop.v = s.v := rfl
@[simp] theorem State.pop_i : s.pop.i = s.i := rfl
@[simp] theorem State.pop_pc : s.pop.pc = s.pc := rfl
@[simp] theorem State.pop_stack : s.pop.stack = s.stack := rfl
@[simp] theorem State.pop_dt : s.pop.dt = s.dt := rfl
@[simp] theorem State.pop_st : s.pop.st = s.st := rfl
@[simp] theorem State.pop_mem : s.pop.mem = s.mem := rfl
@[simp] theorem State.pop_fb : s.pop.fb = s.fb := rfl
@[simp] theorem State.pop_redraw : s.pop.redraw = s.redraw := rfl
@[simp] theorem State.pop_keys : s.pop.keys = s.keys := rfl
@[simp] theorem State.pop_keyPrev : s.pop.keyPrev = s.keyPrev := rfl
@[simp] theorem State.pop_runState : s.pop.runState = s.runState := rfl
@[simp] theorem State.pop_faultCause : s.pop.faultCause = s.faultCause := rfl
@[simp] theorem State.pop_faultPc : s.pop.faultPc = s.faultPc := rfl
@[simp] theorem State.pop_faultOpcode : s.pop.faultOpcode = s.faultOpcode := rfl
@[simp] theorem State.pop_faultAddr : s.pop.faultAddr = s.faultAddr := rfl
@[simp] theorem State.pop_cycleCount : s.pop.cycleCount = s.cycleCount := rfl
@[simp] theorem State.pop_tickCount : s.pop.tickCount = s.tickCount := rfl
@[simp] theorem State.pop_lastResult : s.pop.lastResult = s.lastResult := rfl
@[simp] theorem State.pop_lastLoad : s.pop.lastLoad = s.lastLoad := rfl
@[simp] theorem State.pop_params : s.pop.params = s.params := rfl
@[simp] theorem State.pop_draws : s.pop.draws = s.draws := rfl
@[simp] theorem State.pop_script : s.pop.script = s.script := rfl

/-! drawn -/

@[simp] theorem State.drawn_v : s.drawn.v = s.v := rfl
@[simp] theorem State.drawn_i : s.drawn.i = s.i := rfl
@[simp] theorem State.drawn_pc : s.drawn.pc = s.pc := rfl
@[simp] theorem State.drawn_stack : s.drawn.stack = s.stack := rfl
@[simp] theorem State.drawn_sp : s.drawn.sp = s.sp := rfl
@[simp] theorem State.drawn_dt : s.drawn.dt = s.dt := rfl
@[simp] theorem State.drawn_st : s.drawn.st = s.st := rfl
@[simp] theorem State.drawn_mem : s.drawn.mem = s.mem := rfl
@[simp] theorem State.drawn_fb : s.drawn.fb = s.fb := rfl
@[simp] theorem State.drawn_redraw : s.drawn.redraw = s.redraw := rfl
@[simp] theorem State.drawn_keys : s.drawn.keys = s.keys := rfl
@[simp] theorem State.drawn_keyPrev : s.drawn.keyPrev = s.keyPrev := rfl
@[simp] theorem State.drawn_runState : s.drawn.runState = s.runState := rfl
@[simp] theorem State.drawn_faultCause : s.drawn.faultCause = s.faultCause := rfl
@[simp] theorem State.drawn_faultPc : s.drawn.faultPc = s.faultPc := rfl
@[simp] theorem State.drawn_faultOpcode : s.drawn.faultOpcode = s.faultOpcode := rfl
@[simp] theorem State.drawn_faultAddr : s.drawn.faultAddr = s.faultAddr := rfl
@[simp] theorem State.drawn_cycleCount : s.drawn.cycleCount = s.cycleCount := rfl
@[simp] theorem State.drawn_tickCount : s.drawn.tickCount = s.tickCount := rfl
@[simp] theorem State.drawn_lastResult : s.drawn.lastResult = s.lastResult := rfl
@[simp] theorem State.drawn_lastLoad : s.drawn.lastLoad = s.lastLoad := rfl
@[simp] theorem State.drawn_params : s.drawn.params = s.params := rfl
@[simp] theorem State.drawn_draws : s.drawn.draws = s.draws + 1 := rfl
@[simp] theorem State.drawn_script : s.drawn.script = s.script := rfl

/-! writeMem -/

@[simp] theorem State.writeMem_v (a : Nat) (bs : List Byte) : (s.writeMem a bs).v = s.v := rfl
@[simp] theorem State.writeMem_i (a : Nat) (bs : List Byte) : (s.writeMem a bs).i = s.i := rfl
@[simp] theorem State.writeMem_pc (a : Nat) (bs : List Byte) : (s.writeMem a bs).pc = s.pc := rfl
@[simp] theorem State.writeMem_stack (a : Nat) (bs : List Byte) : (s.writeMem a bs).stack = s.stack := rfl
@[simp] theorem State.writeMem_sp (a : Nat) (bs : List Byte) : (s.writeMem a bs).sp = s.sp := rfl
@[simp] theorem State.writeMem_dt (a : Nat) (bs : List Byte) : (s.writeMem a bs).dt = s.dt := rfl
@[simp] theorem State.writeMem_st (a : Nat) (bs : List Byte) : (s.writeMem a bs).st = s.st := rfl
@[simp] theorem State.writeMem_mem (a : Nat) (bs : List Byte) : (s.writeMem a bs).mem = Memory.writeRun s.params.font s.mem a bs := rfl
@[simp] theorem State.writeMem_fb (a : Nat) (bs : List Byte) : (s.writeMem a bs).fb = s.fb := rfl
@[simp] theorem State.writeMem_redraw (a : Nat) (bs : List Byte) : (s.writeMem a bs).redraw = s.redraw := rfl
@[simp] theorem State.writeMem_keys (a : Nat) (bs : List Byte) : (s.writeMem a bs).keys = s.keys := rfl
@[simp] theorem State.writeMem_keyPrev (a : Nat) (bs : List Byte) : (s.writeMem a bs).keyPrev = s.keyPrev := rfl
@[simp] theorem State.writeMem_runState (a : Nat) (bs : List Byte) : (s.writeMem a bs).runState = s.runState := rfl
@[simp] theorem State.writeMem_faultCause (a : Nat) (bs : List Byte) : (s.writeMem a bs).faultCause = s.faultCause := rfl
@[simp] theorem State.writeMem_faultPc (a : Nat) (bs : List Byte) : (s.writeMem a bs).faultPc = s.faultPc := rfl
@[simp] theorem State.writeMem_faultOpcode (a : Nat) (bs : List Byte) : (s.writeMem a bs).faultOpcode = s.faultOpcode := rfl
@[simp] theorem State.writeMem_faultAddr (a : Nat) (bs : List Byte) : (s.writeMem a bs).faultAddr = s.faultAddr := rfl
@[simp] theorem State.writeMem_cycleCount (a : Nat) (bs : List Byte) : (s.writeMem a bs).cycleCount = s.cycleCount := rfl
@[simp] theorem State.writeMem_tickCount (a : Nat) (bs : List Byte) : (s.writeMem a bs).tickCount = s.tickCount := rfl
@[simp] theorem State.writeMem_lastResult (a : Nat) (bs : List Byte) : (s.writeMem a bs).lastResult = s.lastResult := rfl
@[simp] theorem State.writeMem_lastLoad (a : Nat) (bs : List Byte) : (s.writeMem a bs).lastLoad = s.lastLoad := rfl
@[simp] theorem State.writeMem_params (a : Nat) (bs : List Byte) : (s.writeMem a bs).params = s.params := rfl
@[simp] theorem State.writeMem_draws (a : Nat) (bs : List Byte) : (s.writeMem a bs).draws = s.draws := rfl
@[simp] theorem State.writeMem_script (a : Nat) (bs : List Byte) : (s.writeMem a bs).script = s.script := rfl

/-! recordFault -/

@[simp] theorem State.recordFault_v (c : FaultCause) (op : Word) (n : Nat) : (s.recordFault c op n).v = s.v := rfl
@[simp] theorem State.recordFault_i (c : FaultCause) (op : Word) (n : Nat) : (s.recordFault c op n).i = s.i := rfl
@[simp] theorem State.recordFault_pc (c : FaultCause) (op : Word) (n : Nat) : (s.recordFault c op n).pc = s.pc := rfl
@[simp] theorem State.recordFault_stack (c : FaultCause) (op : Word) (n : Nat) : (s.recordFault c op n).stack = s.stack := rfl
@[simp] theorem State.recordFault_sp (c : FaultCause) (op : Word) (n : Nat) : (s.recordFault c op n).sp = s.sp := rfl
@[simp] theorem State.recordFault_dt (c : FaultCause) (op : Word) (n : Nat) : (s.recordFault c op n).dt = s.dt := rfl
@[simp] theorem State.recordFault_st (c : FaultCause) (op : Word) (n : Nat) : (s.recordFault c op n).st = s.st := rfl
@[simp] theorem State.recordFault_mem (c : FaultCause) (op : Word) (n : Nat) : (s.recordFault c op n).mem = s.mem := rfl
@[simp] theorem State.recordFault_fb (c : FaultCause) (op : Word) (n : Nat) : (s.recordFault c op n).fb = s.fb := rfl
@[simp] theorem State.recordFault_redraw (c : FaultCause) (op : Word) (n : Nat) : (s.recordFault c op n).redraw = s.redraw := rfl
@[simp] theorem State.recordFault_keys (c : FaultCause) (op : Word) (n : Nat) : (s.recordFault c op n).keys = s.keys := rfl
@[simp] theorem State.recordFault_keyPrev (c : FaultCause) (op : Word) (n : Nat) : (s.recordFault c op n).keyPrev = s.keyPrev := rfl
@[simp] theorem State.recordFault_runState (c : FaultCause) (op : Word) (n : Nat) : (s.recordFault c op n).runState = s.runState := rfl
@[simp] theorem State.recordFault_faultCause (c : FaultCause) (op : Word) (n : Nat) : (s.recordFault c op n).faultCause = c := rfl
@[simp] theorem State.recordFault_faultPc (c : FaultCause) (op : Word) (n : Nat) : (s.recordFault c op n).faultPc = s.pc := rfl
@[simp] theorem State.recordFault_faultOpcode (c : FaultCause) (op : Word) (n : Nat) : (s.recordFault c op n).faultOpcode = op := rfl
@[simp] theorem State.recordFault_faultAddr (c : FaultCause) (op : Word) (n : Nat) : (s.recordFault c op n).faultAddr = BitVec.ofNat 17 n := rfl
@[simp] theorem State.recordFault_cycleCount (c : FaultCause) (op : Word) (n : Nat) : (s.recordFault c op n).cycleCount = s.cycleCount := rfl
@[simp] theorem State.recordFault_tickCount (c : FaultCause) (op : Word) (n : Nat) : (s.recordFault c op n).tickCount = s.tickCount := rfl
@[simp] theorem State.recordFault_lastResult (c : FaultCause) (op : Word) (n : Nat) : (s.recordFault c op n).lastResult = .fault c := rfl
@[simp] theorem State.recordFault_lastLoad (c : FaultCause) (op : Word) (n : Nat) : (s.recordFault c op n).lastLoad = s.lastLoad := rfl
@[simp] theorem State.recordFault_params (c : FaultCause) (op : Word) (n : Nat) : (s.recordFault c op n).params = s.params := rfl
@[simp] theorem State.recordFault_draws (c : FaultCause) (op : Word) (n : Nat) : (s.recordFault c op n).draws = s.draws := rfl
@[simp] theorem State.recordFault_script (c : FaultCause) (op : Word) (n : Nat) : (s.recordFault c op n).script = s.script := rfl

/-! tick -/

@[simp] theorem State.tick_v : s.tick.v = s.v := rfl
@[simp] theorem State.tick_i : s.tick.i = s.i := rfl
@[simp] theorem State.tick_pc : s.tick.pc = s.pc := rfl
@[simp] theorem State.tick_stack : s.tick.stack = s.stack := rfl
@[simp] theorem State.tick_sp : s.tick.sp = s.sp := rfl
@[simp] theorem State.tick_dt : s.tick.dt = countDown s.dt := rfl
@[simp] theorem State.tick_st : s.tick.st = countDown s.st := rfl
@[simp] theorem State.tick_mem : s.tick.mem = s.mem := rfl
@[simp] theorem State.tick_fb : s.tick.fb = s.fb := rfl
@[simp] theorem State.tick_redraw : s.tick.redraw = s.redraw := rfl
@[simp] theorem State.tick_keys : s.tick.keys = s.keys := rfl
@[simp] theorem State.tick_keyPrev : s.tick.keyPrev = s.keyPrev := rfl
@[simp] theorem State.tick_runState : s.tick.runState = s.runState := rfl
@[simp] theorem State.tick_faultCause : s.tick.faultCause = s.faultCause := rfl
@[simp] theorem State.tick_faultPc : s.tick.faultPc = s.faultPc := rfl
@[simp] theorem State.tick_faultOpcode : s.tick.faultOpcode = s.faultOpcode := rfl
@[simp] theorem State.tick_faultAddr : s.tick.faultAddr = s.faultAddr := rfl
@[simp] theorem State.tick_cycleCount : s.tick.cycleCount = s.cycleCount := rfl
@[simp] theorem State.tick_tickCount : s.tick.tickCount = s.tickCount + 1 := rfl
@[simp] theorem State.tick_lastResult : s.tick.lastResult = s.lastResult := rfl
@[simp] theorem State.tick_lastLoad : s.tick.lastLoad = s.lastLoad := rfl
@[simp] theorem State.tick_params : s.tick.params = s.params := rfl
@[simp] theorem State.tick_draws : s.tick.draws = s.draws := rfl
@[simp] theorem State.tick_script : s.tick.script = s.script := rfl

/-! endCycle -/

@[simp] theorem State.endCycle_v : s.endCycle.v = s.v := rfl
@[simp] theorem State.endCycle_i : s.endCycle.i = s.i := rfl
@[simp] theorem State.endCycle_pc : s.endCycle.pc = s.pc := rfl
@[simp] theorem State.endCycle_stack : s.endCycle.stack = s.stack := rfl
@[simp] theorem State.endCycle_sp : s.endCycle.sp = s.sp := rfl
@[simp] theorem State.endCycle_dt : s.endCycle.dt = s.dt := rfl
@[simp] theorem State.endCycle_st : s.endCycle.st = s.st := rfl
@[simp] theorem State.endCycle_mem : s.endCycle.mem = s.mem := rfl
@[simp] theorem State.endCycle_fb : s.endCycle.fb = s.fb := rfl
@[simp] theorem State.endCycle_redraw : s.endCycle.redraw = s.redraw := rfl
@[simp] theorem State.endCycle_keys : s.endCycle.keys = s.keys := rfl
@[simp] theorem State.endCycle_keyPrev : s.endCycle.keyPrev = s.keys := rfl
@[simp] theorem State.endCycle_runState : s.endCycle.runState = s.runState := rfl
@[simp] theorem State.endCycle_faultCause : s.endCycle.faultCause = s.faultCause := rfl
@[simp] theorem State.endCycle_faultPc : s.endCycle.faultPc = s.faultPc := rfl
@[simp] theorem State.endCycle_faultOpcode : s.endCycle.faultOpcode = s.faultOpcode := rfl
@[simp] theorem State.endCycle_faultAddr : s.endCycle.faultAddr = s.faultAddr := rfl
@[simp] theorem State.endCycle_cycleCount : s.endCycle.cycleCount = s.cycleCount + 1 := rfl
@[simp] theorem State.endCycle_tickCount : s.endCycle.tickCount = s.tickCount := rfl
@[simp] theorem State.endCycle_lastResult : s.endCycle.lastResult = s.lastResult := rfl
@[simp] theorem State.endCycle_lastLoad : s.endCycle.lastLoad = s.lastLoad := rfl
@[simp] theorem State.endCycle_params : s.endCycle.params = s.params := rfl
@[simp] theorem State.endCycle_draws : s.endCycle.draws = s.draws := rfl
@[simp] theorem State.endCycle_script : s.endCycle.script = s.script := rfl

/-! startCycle -/

@[simp] theorem State.startCycle_v : s.startCycle.v = s.v := rfl
@[simp] theorem State.startCycle_i : s.startCycle.i = s.i := rfl
@[simp] theorem State.startCycle_pc : s.startCycle.pc = s.pc := rfl
@[simp] theorem State.startCycle_stack : s.startCycle.stack = s.stack := rfl
@[simp] theorem State.startCycle_sp : s.startCycle.sp = s.sp := rfl
@[simp] theorem State.startCycle_dt : s.startCycle.dt = s.dt := rfl
@[simp] theorem State.startCycle_st : s.startCycle.st = s.st := rfl
@[simp] theorem State.startCycle_mem : s.startCycle.mem = s.mem := rfl
@[simp] theorem State.startCycle_fb : s.startCycle.fb = s.fb := rfl
@[simp] theorem State.startCycle_redraw : s.startCycle.redraw = s.redraw := rfl
@[simp] theorem State.startCycle_keys : s.startCycle.keys = s.keys := rfl
@[simp] theorem State.startCycle_keyPrev : s.startCycle.keyPrev = s.keyPrev := rfl
@[simp] theorem State.startCycle_runState : s.startCycle.runState = s.runState := rfl
@[simp] theorem State.startCycle_faultCause : s.startCycle.faultCause = s.faultCause := rfl
@[simp] theorem State.startCycle_faultPc : s.startCycle.faultPc = s.faultPc := rfl
@[simp] theorem State.startCycle_faultOpcode : s.startCycle.faultOpcode = s.faultOpcode := rfl
@[simp] theorem State.startCycle_faultAddr : s.startCycle.faultAddr = s.faultAddr := rfl
@[simp] theorem State.startCycle_cycleCount : s.startCycle.cycleCount = s.cycleCount := rfl
@[simp] theorem State.startCycle_tickCount : s.startCycle.tickCount = s.tickCount := rfl
@[simp] theorem State.startCycle_lastResult : s.startCycle.lastResult = .ok := rfl
@[simp] theorem State.startCycle_lastLoad : s.startCycle.lastLoad = s.lastLoad := rfl
@[simp] theorem State.startCycle_params : s.startCycle.params = s.params := rfl
@[simp] theorem State.startCycle_draws : s.startCycle.draws = s.draws := rfl
@[simp] theorem State.startCycle_script : s.startCycle.script = s.script := rfl

/-! setKeys -/

@[simp] theorem State.setKeys_v (k : BitVec 16) : (s.setKeys k).v = s.v := rfl
@[simp] theorem State.setKeys_i (k : BitVec 16) : (s.setKeys k).i = s.i := rfl
@[simp] theorem State.setKeys_pc (k : BitVec 16) : (s.setKeys k).pc = s.pc := rfl
@[simp] theorem State.setKeys_stack (k : BitVec 16) : (s.setKeys k).stack = s.stack := rfl
@[simp] theorem State.setKeys_sp (k : BitVec 16) : (s.setKeys k).sp = s.sp := rfl
@[simp] theorem State.setKeys_dt (k : BitVec 16) : (s.setKeys k).dt = s.dt := rfl
@[simp] theorem State.setKeys_st (k : BitVec 16) : (s.setKeys k).st = s.st := rfl
@[simp] theorem State.setKeys_mem (k : BitVec 16) : (s.setKeys k).mem = s.mem := rfl
@[simp] theorem State.setKeys_fb (k : BitVec 16) : (s.setKeys k).fb = s.fb := rfl
@[simp] theorem State.setKeys_redraw (k : BitVec 16) : (s.setKeys k).redraw = s.redraw := rfl
@[simp] theorem State.setKeys_keys (k : BitVec 16) : (s.setKeys k).keys = k := rfl
@[simp] theorem State.setKeys_keyPrev (k : BitVec 16) : (s.setKeys k).keyPrev = s.keyPrev := rfl
@[simp] theorem State.setKeys_runState (k : BitVec 16) : (s.setKeys k).runState = s.runState := rfl
@[simp] theorem State.setKeys_faultCause (k : BitVec 16) : (s.setKeys k).faultCause = s.faultCause := rfl
@[simp] theorem State.setKeys_faultPc (k : BitVec 16) : (s.setKeys k).faultPc = s.faultPc := rfl
@[simp] theorem State.setKeys_faultOpcode (k : BitVec 16) : (s.setKeys k).faultOpcode = s.faultOpcode := rfl
@[simp] theorem State.setKeys_faultAddr (k : BitVec 16) : (s.setKeys k).faultAddr = s.faultAddr := rfl
@[simp] theorem State.setKeys_cycleCount (k : BitVec 16) : (s.setKeys k).cycleCount = s.cycleCount := rfl
@[simp] theorem State.setKeys_tickCount (k : BitVec 16) : (s.setKeys k).tickCount = s.tickCount := rfl
@[simp] theorem State.setKeys_lastResult (k : BitVec 16) : (s.setKeys k).lastResult = s.lastResult := rfl
@[simp] theorem State.setKeys_lastLoad (k : BitVec 16) : (s.setKeys k).lastLoad = s.lastLoad := rfl
@[simp] theorem State.setKeys_params (k : BitVec 16) : (s.setKeys k).params = s.params := rfl
@[simp] theorem State.setKeys_draws (k : BitVec 16) : (s.setKeys k).draws = s.draws := rfl
@[simp] theorem State.setKeys_script (k : BitVec 16) : (s.setKeys k).script = s.script := rfl

/-! clearRedraw -/

@[simp] theorem State.clearRedraw_v : s.clearRedraw.v = s.v := rfl
@[simp] theorem State.clearRedraw_i : s.clearRedraw.i = s.i := rfl
@[simp] theorem State.clearRedraw_pc : s.clearRedraw.pc = s.pc := rfl
@[simp] theorem State.clearRedraw_stack : s.clearRedraw.stack = s.stack := rfl
@[simp] theorem State.clearRedraw_sp : s.clearRedraw.sp = s.sp := rfl
@[simp] theorem State.clearRedraw_dt : s.clearRedraw.dt = s.dt := rfl
@[simp] theorem State.clearRedraw_st : s.clearRedraw.st = s.st := rfl
@[simp] theorem State.clearRedraw_mem : s.clearRedraw.mem = s.mem := rfl
@[simp] theorem State.clearRedraw_fb : s.clearRedraw.fb = s.fb := rfl
@[simp] theorem State.clearRedraw_redraw : s.clearRedraw.redraw = false := rfl
@[simp] theorem State.clearRedraw_keys : s.clearRedraw.keys = s.keys := rfl
@[simp] theorem State.clearRedraw_keyPrev : s.clearRedraw.keyPrev = s.keyPrev := rfl
@[simp] theorem State.clearRedraw_runState : s.clearRedraw.runState = s.runState := rfl
@[simp] theorem State.clearRedraw_faultCause : s.clearRedraw.faultCause = s.faultCause := rfl
@[simp] theorem State.clearRedraw_faultPc : s.clearRedraw.faultPc = s.faultPc := rfl
@[simp] theorem State.clearRedraw_faultOpcode : s.clearRedraw.faultOpcode = s.faultOpcode := rfl
@[simp] theorem State.clearRedraw_faultAddr : s.clearRedraw.faultAddr = s.faultAddr := rfl
@[simp] theorem State.clearRedraw_cycleCount : s.clearRedraw.cycleCount = s.cycleCount := rfl
@[simp] theorem State.clearRedraw_tickCount : s.clearRedraw.tickCount = s.tickCount := rfl
@[simp] theorem State.clearRedraw_lastResult : s.clearRedraw.lastResult = s.lastResult := rfl
@[simp] theorem State.clearRedraw_lastLoad : s.clearRedraw.lastLoad = s.lastLoad := rfl
@[simp] theorem State.clearRedraw_params : s.clearRedraw.params = s.params := rfl
@[simp] theorem State.clearRedraw_draws : s.clearRedraw.draws = s.draws := rfl
@[simp] theorem State.clearRedraw_script : s.clearRedraw.script = s.script := rfl

/-! quit -/

@[simp] theorem State.quit_v : s.quit.v = s.v := rfl
@[simp] theorem State.quit_i : s.quit.i = s.i := rfl
@[simp] theorem State.quit_pc : s.quit.pc = s.pc := rfl
@[simp] theorem State.quit_stack : s.quit.stack = s.stack := rfl
@[simp] theorem State.quit_sp : s.quit.sp = s.sp := rfl
@[simp] theorem State.quit_dt : s.quit.dt = s.dt := rfl
@[simp] theorem State.quit_st : s.quit.st = s.st := rfl
@[simp] theorem State.quit_mem : s.quit.mem = s.mem := rfl
@[simp] theorem State.quit_fb : s.quit.fb = s.fb := rfl
@[simp] theorem State.quit_redraw : s.quit.redraw = s.redraw := rfl
@[simp] theorem State.quit_keys : s.quit.keys = s.keys := rfl
@[simp] theorem State.quit_keyPrev : s.quit.keyPrev = s.keyPrev := rfl
@[simp] theorem State.quit_runState : s.quit.runState = .halted := rfl
@[simp] theorem State.quit_faultCause : s.quit.faultCause = s.faultCause := rfl
@[simp] theorem State.quit_faultPc : s.quit.faultPc = s.faultPc := rfl
@[simp] theorem State.quit_faultOpcode : s.quit.faultOpcode = s.faultOpcode := rfl
@[simp] theorem State.quit_faultAddr : s.quit.faultAddr = s.faultAddr := rfl
@[simp] theorem State.quit_cycleCount : s.quit.cycleCount = s.cycleCount := rfl
@[simp] theorem State.quit_tickCount : s.quit.tickCount = s.tickCount := rfl
@[simp] theorem State.quit_lastResult : s.quit.lastResult = s.lastResult := rfl
@[simp] theorem State.quit_lastLoad : s.quit.lastLoad = s.lastLoad := rfl
@[simp] theorem State.quit_params : s.quit.params = s.params := rfl
@[simp] theorem State.quit_draws : s.quit.draws = s.draws := rfl
@[simp] theorem State.quit_script : s.quit.script = s.script := rfl

/-! popScript -/

@[simp] theorem State.popScript_v : s.popScript.v = s.v := rfl
@[simp] theorem State.popScript_i : s.popScript.i = s.i := rfl
@[simp] theorem State.popScript_pc : s.popScript.pc = s.pc := rfl
@[simp] theorem State.popScript_stack : s.popScript.stack = s.stack := rfl
@[simp] theorem State.popScript_sp : s.popScript.sp = s.sp := rfl
@[simp] theorem State.popScript_dt : s.popScript.dt = s.dt := rfl
@[simp] theorem State.popScript_st : s.popScript.st = s.st := rfl
@[simp] theorem State.popScript_mem : s.popScript.mem = s.mem := rfl
@[simp] theorem State.popScript_fb : s.popScript.fb = s.fb := rfl
@[simp] theorem State.popScript_redraw : s.popScript.redraw = s.redraw := rfl
@[simp] theorem State.popScript_keys : s.popScript.keys = s.keys := rfl
@[simp] theorem State.popScript_keyPrev : s.popScript.keyPrev = s.keyPrev := rfl
@[simp] theorem State.popScript_runState : s.popScript.runState = s.runState := rfl
@[simp] theorem State.popScript_faultCause : s.popScript.faultCause = s.faultCause := rfl
@[simp] theorem State.popScript_faultPc : s.popScript.faultPc = s.faultPc := rfl
@[simp] theorem State.popScript_faultOpcode : s.popScript.faultOpcode = s.faultOpcode := rfl
@[simp] theorem State.popScript_faultAddr : s.popScript.faultAddr = s.faultAddr := rfl
@[simp] theorem State.popScript_cycleCount : s.popScript.cycleCount = s.cycleCount := rfl
@[simp] theorem State.popScript_tickCount : s.popScript.tickCount = s.tickCount := rfl
@[simp] theorem State.popScript_lastResult : s.popScript.lastResult = s.lastResult := rfl
@[simp] theorem State.popScript_lastLoad : s.popScript.lastLoad = s.lastLoad := rfl
@[simp] theorem State.popScript_params : s.popScript.params = s.params := rfl
@[simp] theorem State.popScript_draws : s.popScript.draws = s.draws := rfl
@[simp] theorem State.popScript_script : s.popScript.script = s.script.tail := rfl

/-! doReset -/

@[simp] theorem State.doReset_v : s.doReset.v = Vector.replicate 16 0 := rfl
@[simp] theorem State.doReset_i : s.doReset.i = 0 := rfl
@[simp] theorem State.doReset_pc : s.doReset.pc = 0x200 := rfl
@[simp] theorem State.doReset_stack : s.doReset.stack = Vector.replicate 32 0 := rfl
@[simp] theorem State.doReset_sp : s.doReset.sp = 0 := rfl
@[simp] theorem State.doReset_dt : s.doReset.dt = 0 := rfl
@[simp] theorem State.doReset_st : s.doReset.st = 0 := rfl
@[simp] theorem State.doReset_mem : s.doReset.mem = Memory.installFont s.mem := rfl
@[simp] theorem State.doReset_fb : s.doReset.fb = Vector.replicate 32 0 := rfl
@[simp] theorem State.doReset_redraw : s.doReset.redraw = false := rfl
@[simp] theorem State.doReset_keys : s.doReset.keys = s.keys := rfl
@[simp] theorem State.doReset_keyPrev : s.doReset.keyPrev = 0 := rfl
@[simp] theorem State.doReset_runState : s.doReset.runState = .running := rfl
@[simp] theorem State.doReset_faultCause : s.doReset.faultCause = .none := rfl
@[simp] theorem State.doReset_faultPc : s.doReset.faultPc = 0 := rfl
@[simp] theorem State.doReset_faultOpcode : s.doReset.faultOpcode = 0 := rfl
@[simp] theorem State.doReset_faultAddr : s.doReset.faultAddr = 0 := rfl
@[simp] theorem State.doReset_cycleCount : s.doReset.cycleCount = s.cycleCount := rfl
@[simp] theorem State.doReset_tickCount : s.doReset.tickCount = s.tickCount := rfl
@[simp] theorem State.doReset_lastResult : s.doReset.lastResult = s.lastResult := rfl
@[simp] theorem State.doReset_lastLoad : s.doReset.lastLoad = s.lastLoad := rfl
@[simp] theorem State.doReset_params : s.doReset.params = s.params := rfl
@[simp] theorem State.doReset_draws : s.doReset.draws = s.draws := rfl
@[simp] theorem State.doReset_script : s.doReset.script = s.script := rfl

/-! skipIf -/

@[simp] theorem State.skipIf_v (c : Bool) : (s.skipIf c).v = s.v := by cases c <;> rfl
@[simp] theorem State.skipIf_i (c : Bool) : (s.skipIf c).i = s.i := by cases c <;> rfl
@[simp] theorem State.skipIf_stack (c : Bool) : (s.skipIf c).stack = s.stack := by cases c <;> rfl
@[simp] theorem State.skipIf_sp (c : Bool) : (s.skipIf c).sp = s.sp := by cases c <;> rfl
@[simp] theorem State.skipIf_dt (c : Bool) : (s.skipIf c).dt = s.dt := by cases c <;> rfl
@[simp] theorem State.skipIf_st (c : Bool) : (s.skipIf c).st = s.st := by cases c <;> rfl
@[simp] theorem State.skipIf_mem (c : Bool) : (s.skipIf c).mem = s.mem := by cases c <;> rfl
@[simp] theorem State.skipIf_fb (c : Bool) : (s.skipIf c).fb = s.fb := by cases c <;> rfl
@[simp] theorem State.skipIf_redraw (c : Bool) : (s.skipIf c).redraw = s.redraw := by cases c <;> rfl
@[simp] theorem State.skipIf_keys (c : Bool) : (s.skipIf c).keys = s.keys := by cases c <;> rfl
@[simp] theorem State.skipIf_keyPrev (c : Bool) : (s.skipIf c).keyPrev = s.keyPrev := by cases c <;> rfl
@[simp] theorem State.skipIf_runState (c : Bool) : (s.skipIf c).runState = s.runState := by cases c <;> rfl
@[simp] theorem State.skipIf_faultCause (c : Bool) : (s.skipIf c).faultCause = s.faultCause := by cases c <;> rfl
@[simp] theorem State.skipIf_faultPc (c : Bool) : (s.skipIf c).faultPc = s.faultPc := by cases c <;> rfl
@[simp] theorem State.skipIf_faultOpcode (c : Bool) : (s.skipIf c).faultOpcode = s.faultOpcode := by cases c <;> rfl
@[simp] theorem State.skipIf_faultAddr (c : Bool) : (s.skipIf c).faultAddr = s.faultAddr := by cases c <;> rfl
@[simp] theorem State.skipIf_cycleCount (c : Bool) : (s.skipIf c).cycleCount = s.cycleCount := by cases c <;> rfl
@[simp] theorem State.skipIf_tickCount (c : Bool) : (s.skipIf c).tickCount = s.tickCount := by cases c <;> rfl
@[simp] theorem State.skipIf_lastResult (c : Bool) : (s.skipIf c).lastResult = s.lastResult := by cases c <;> rfl
@[simp] theorem State.skipIf_lastLoad (c : Bool) : (s.skipIf c).lastLoad = s.lastLoad := by cases c <;> rfl
@[simp] theorem State.skipIf_params (c : Bool) : (s.skipIf c).params = s.params := by cases c <;> rfl
@[simp] theorem State.skipIf_draws (c : Bool) : (s.skipIf c).draws = s.draws := by cases c <;> rfl
@[simp] theorem State.skipIf_script (c : Bool) : (s.skipIf c).script = s.script := by cases c <;> rfl

/-! push -/

@[simp] theorem State.push_v (w : Word) : (s.push w).v = s.v := by unfold State.push; split <;> rfl
@[simp] theorem State.push_i (w : Word) : (s.push w).i = s.i := by unfold State.push; split <;> rfl
@[simp] theorem State.push_pc (w : Word) : (s.push w).pc = s.pc := by unfold State.push; split <;> rfl
@[simp] theorem State.push_dt (w : Word) : (s.push w).dt = s.dt := by unfold State.push; split <;> rfl
@[simp] theorem State.push_st (w : Word) : (s.push w).st = s.st := by unfold State.push; split <;> rfl
@[simp] theorem State.push_mem (w : Word) : (s.push w).mem = s.mem := by unfold State.push; split <;> rfl
@[simp] theorem State.push_fb (w : Word) : (s.push w).fb = s.fb := by unfold State.push; split <;> rfl
@[simp] theorem State.push_redraw (w : Word) : (s.push w).redraw = s.redraw := by unfold State.push; split <;> rfl
@[simp] theorem State.push_keys (w : Word) : (s.push w).keys = s.keys := by unfold State.push; split <;> rfl
@[simp] theorem State.push_keyPrev (w : Word) : (s.push w).keyPrev = s.keyPrev := by unfold State.push; split <;> rfl
@[simp] theorem State.push_runState (w : Word) : (s.push w).runState = s.runState := by unfold State.push; split <;> rfl
@[simp] theorem State.push_faultCause (w : Word) : (s.push w).faultCause = s.faultCause := by unfold State.push; split <;> rfl
@[simp] theorem State.push_faultPc (w : Word) : (s.push w).faultPc = s.faultPc := by unfold State.push; split <;> rfl
@[simp] theorem State.push_faultOpcode (w : Word) : (s.push w).faultOpcode = s.faultOpcode := by unfold State.push; split <;> rfl
@[simp] theorem State.push_faultAddr (w : Word) : (s.push w).faultAddr = s.faultAddr := by unfold State.push; split <;> rfl
@[simp] theorem State.push_cycleCount (w : Word) : (s.push w).cycleCount = s.cycleCount := by unfold State.push; split <;> rfl
@[simp] theorem State.push_tickCount (w : Word) : (s.push w).tickCount = s.tickCount := by unfold State.push; split <;> rfl
@[simp] theorem State.push_lastResult (w : Word) : (s.push w).lastResult = s.lastResult := by unfold State.push; split <;> rfl
@[simp] theorem State.push_lastLoad (w : Word) : (s.push w).lastLoad = s.lastLoad := by unfold State.push; split <;> rfl
@[simp] theorem State.push_params (w : Word) : (s.push w).params = s.params := by unfold State.push; split <;> rfl
@[simp] theorem State.push_draws (w : Word) : (s.push w).draws = s.draws := by unfold State.push; split <;> rfl
@[simp] theorem State.push_script (w : Word) : (s.push w).script = s.script := by unfold State.push; split <;> rfl

/-! takeFault -/

@[simp] theorem State.takeFault_v (c : FaultCause) (op : Word) (n : Nat) : (s.takeFault c op n).v = s.v := by unfold State.takeFault; split <;> rfl
@[simp] theorem State.takeFault_i (c : FaultCause) (op : Word) (n : Nat) : (s.takeFault c op n).i = s.i := by unfold State.takeFault; split <;> rfl
@[simp] theorem State.takeFault_stack (c : FaultCause) (op : Word) (n : Nat) : (s.takeFault c op n).stack = s.stack := by unfold State.takeFault; split <;> rfl
@[simp] theorem State.takeFault_sp (c : FaultCause) (op : Word) (n : Nat) : (s.takeFault c op n).sp = s.sp := by unfold State.takeFault; split <;> rfl
@[simp] theorem State.takeFault_dt (c : FaultCause) (op : Word) (n : Nat) : (s.takeFault c op n).dt = s.dt := by unfold State.takeFault; split <;> rfl
@[simp] theorem State.takeFault_st (c : FaultCause) (op : Word) (n : Nat) : (s.takeFault c op n).st = s.st := by unfold State.takeFault; split <;> rfl
@[simp] theorem State.takeFault_mem (c : FaultCause) (op : Word) (n : Nat) : (s.takeFault c op n).mem = s.mem := by unfold State.takeFault; split <;> rfl
@[simp] theorem State.takeFault_fb (c : FaultCause) (op : Word) (n : Nat) : (s.takeFault c op n).fb = s.fb := by unfold State.takeFault; split <;> rfl
@[simp] theorem State.takeFault_redraw (c : FaultCause) (op : Word) (n : Nat) : (s.takeFault c op n).redraw = s.redraw := by unfold State.takeFault; split <;> rfl
@[simp] theorem State.takeFault_keys (c : FaultCause) (op : Word) (n : Nat) : (s.takeFault c op n).keys = s.keys := by unfold State.takeFault; split <;> rfl
@[simp] theorem State.takeFault_keyPrev (c : FaultCause) (op : Word) (n : Nat) : (s.takeFault c op n).keyPrev = s.keyPrev := by unfold State.takeFault; split <;> rfl
@[simp] theorem State.takeFault_cycleCount (c : FaultCause) (op : Word) (n : Nat) : (s.takeFault c op n).cycleCount = s.cycleCount := by unfold State.takeFault; split <;> rfl
@[simp] theorem State.takeFault_tickCount (c : FaultCause) (op : Word) (n : Nat) : (s.takeFault c op n).tickCount = s.tickCount := by unfold State.takeFault; split <;> rfl
@[simp] theorem State.takeFault_lastLoad (c : FaultCause) (op : Word) (n : Nat) : (s.takeFault c op n).lastLoad = s.lastLoad := by unfold State.takeFault; split <;> rfl
@[simp] theorem State.takeFault_params (c : FaultCause) (op : Word) (n : Nat) : (s.takeFault c op n).params = s.params := by unfold State.takeFault; split <;> rfl
@[simp] theorem State.takeFault_draws (c : FaultCause) (op : Word) (n : Nat) : (s.takeFault c op n).draws = s.draws := by unfold State.takeFault; split <;> rfl
@[simp] theorem State.takeFault_script (c : FaultCause) (op : Word) (n : Nat) : (s.takeFault c op n).script = s.script := by unfold State.takeFault; split <;> rfl

/-! cycleTail -/

@[simp] theorem State.cycleTail_v (t : Bool) : (s.cycleTail t).v = s.v := by unfold State.cycleTail; split <;> (try split) <;> rfl
@[simp] theorem State.cycleTail_i (t : Bool) : (s.cycleTail t).i = s.i := by unfold State.cycleTail; split <;> (try split) <;> rfl
@[simp] theorem State.cycleTail_pc (t : Bool) : (s.cycleTail t).pc = s.pc := by unfold State.cycleTail; split <;> (try split) <;> rfl
@[simp] theorem State.cycleTail_stack (t : Bool) : (s.cycleTail t).stack = s.stack := by unfold State.cycleTail; split <;> (try split) <;> rfl
@[simp] theorem State.cycleTail_sp (t : Bool) : (s.cycleTail t).sp = s.sp := by unfold State.cycleTail; split <;> (try split) <;> rfl
@[simp] theorem State.cycleTail_mem (t : Bool) : (s.cycleTail t).mem = s.mem := by unfold State.cycleTail; split <;> (try split) <;> rfl
@[simp] theorem State.cycleTail_fb (t : Bool) : (s.cycleTail t).fb = s.fb := by unfold State.cycleTail; split <;> (try split) <;> rfl
@[simp] theorem State.cycleTail_redraw (t : Bool) : (s.cycleTail t).redraw = s.redraw := by unfold State.cycleTail; split <;> (try split) <;> rfl
@[simp] theorem State.cycleTail_keys (t : Bool) : (s.cycleTail t).keys = s.keys := by unfold State.cycleTail; split <;> (try split) <;> rfl
@[simp] theorem State.cycleTail_runState (t : Bool) : (s.cycleTail t).runState = s.runState := by unfold State.cycleTail; split <;> (try split) <;> rfl
@[simp] theorem State.cycleTail_faultCause (t : Bool) : (s.cycleTail t).faultCause = s.faultCause := by unfold State.cycleTail; split <;> (try split) <;> rfl
@[simp] theorem State.cycleTail_faultPc (t : Bool) : (s.cycleTail t).faultPc = s.faultPc := by unfold State.cycleTail; split <;> (try split) <;> rfl
@[simp] theorem State.cycleTail_faultOpcode (t : Bool) : (s.cycleTail t).faultOpcode = s.faultOpcode := by unfold State.cycleTail; split <;> (try split) <;> rfl
@[simp] theorem State.cycleTail_faultAddr (t : Bool) : (s.cycleTail t).faultAddr = s.faultAddr := by unfold State.cycleTail; split <;> (try split) <;> rfl
@[simp] theorem State.cycleTail_lastResult (t : Bool) : (s.cycleTail t).lastResult = s.lastResult := by unfold State.cycleTail; split <;> (try split) <;> rfl
@[simp] theorem State.cycleTail_lastLoad (t : Bool) : (s.cycleTail t).lastLoad = s.lastLoad := by unfold State.cycleTail; split <;> (try split) <;> rfl
@[simp] theorem State.cycleTail_params (t : Bool) : (s.cycleTail t).params = s.params := by unfold State.cycleTail; split <;> (try split) <;> rfl
@[simp] theorem State.cycleTail_draws (t : Bool) : (s.cycleTail t).draws = s.draws := by unfold State.cycleTail; split <;> (try split) <;> rfl
@[simp] theorem State.cycleTail_script (t : Bool) : (s.cycleTail t).script = s.script := by unfold State.cycleTail; split <;> (try split) <;> rfl

@[simp] theorem State.pop_sp_val : s.pop.sp.val = s.sp.val - 1 := rfl

@[simp] theorem State.skipIf_pc (c : Bool) : (s.skipIf c).pc = if c then s.pc + 4 else s.pc + 2 := by
  cases c <;> rfl

@[simp] theorem State.takeFault_faultCause (c : FaultCause) (op : Word) (n : Nat) :
    (s.takeFault c op n).faultCause = c := by unfold State.takeFault; split <;> rfl
@[simp] theorem State.takeFault_faultPc (c : FaultCause) (op : Word) (n : Nat) :
    (s.takeFault c op n).faultPc = s.pc := by unfold State.takeFault; split <;> rfl
@[simp] theorem State.takeFault_faultOpcode (c : FaultCause) (op : Word) (n : Nat) :
    (s.takeFault c op n).faultOpcode = op := by unfold State.takeFault; split <;> rfl
@[simp] theorem State.takeFault_faultAddr (c : FaultCause) (op : Word) (n : Nat) :
    (s.takeFault c op n).faultAddr = BitVec.ofNat 17 n := by unfold State.takeFault; split <;> rfl
@[simp] theorem State.takeFault_lastResult (c : FaultCause) (op : Word) (n : Nat) :
    (s.takeFault c op n).lastResult = .fault c := by unfold State.takeFault; split <;> rfl

/-- What ON_FAULT makes of a fault's run state (R285). -/
theorem State.takeFault_runState (c : FaultCause) (op : Word) (n : Nat) :
    (s.takeFault c op n).runState = if s.params.onFault = .halt then .halted else s.runState := by
  unfold State.takeFault
  split <;> rename_i h <;> rw [h] <;> rfl

/-- What ON_FAULT makes of a fault's PC (R285). -/
theorem State.takeFault_pc (c : FaultCause) (op : Word) (n : Nat) :
    (s.takeFault c op n).pc = if s.params.onFault = .halt then s.pc else s.pc + 2 := by
  unfold State.takeFault
  split <;> rename_i h <;> rw [h] <;> rfl

/-- A push below the capacity (R152). -/
theorem State.push_of_lt (w : Word) (h : s.sp.val < 32) :
    (s.push w).stack = s.stack.set s.sp.val w ∧ (s.push w).sp.val = s.sp.val + 1 := by
  unfold State.push
  rw [dif_pos h]
  exact ⟨rfl, rfl⟩

/-- The cycle tail of a running core (R311). -/
theorem State.cycleTail_running (t : Bool) (h : s.runState = .running) :
    s.cycleTail t = if t then s.tick.endCycle else s.endCycle := by
  unfold State.cycleTail
  rw [h]

/-- The cycle tail of a core that a fault has halted (R285). -/
theorem State.cycleTail_halted (t : Bool) (h : s.runState = .halted) : s.cycleTail t = s := by
  unfold State.cycleTail
  rw [h]

end Sys2Proof.Machine
end

