-- ==== Sys2Proof/Laws/Memory.lean ====
section
/-! SUPPORT. Memory: a read after a write, and that every memory operation keeps the canonical form (R60, R66, R83). -/

namespace Sys2Proof.Machine

variable (font : Vector Byte 80) (m : Memory)

/-! The list of written bytes -/

theorem Memory.find_insert (a b : Nat) (v : Byte) :
    Memory.find (Memory.insert a v m) b = if a = b then some v else Memory.find m b := by
  induction m with
  | nil => simp [Memory.insert, Memory.find]
  | cons c m ih =>
    obtain ⟨c, w⟩ := c
    simp only [Memory.insert]
    split
    · simp only [Memory.find]
    · split
      · subst_vars; simp only [Memory.find]; split <;> rfl
      · rename_i h
        simp only [Memory.find, ih]
        split
        · subst_vars; rw [if_neg h]
        · rfl

theorem Memory.find_erase (a b : Nat) : Memory.find (Memory.erase a m) b = if a = b then none else Memory.find m b := by
  induction m with
  | nil => simp [Memory.erase, Memory.find]
  | cons c m ih =>
    obtain ⟨c, w⟩ := c
    simp only [Memory.erase, List.filter_cons] at ih ⊢
    by_cases hc : c = a
    · subst hc
      simp only [bne_self_eq_false, Bool.false_eq_true, if_false, ih, Memory.find]
      split <;> rfl
    · simp only [bne_iff_ne, ne_eq, hc, not_false_iff, if_true, Memory.find, ih]
      split
      · subst_vars; rw [if_neg (Ne.symm hc)]
      · rfl

/-- A byte read after a byte write (R66, R80): the value written at the address written, every other byte as it was. -/
theorem Memory.read_write (a b : Nat) (v : Byte) :
    Memory.read font (Memory.write font m a v) b = if a = b then v else Memory.read font m b := by
  unfold Memory.read Memory.write
  by_cases hu : Memory.unlisted font a = some v
  · rw [if_pos hu, Memory.find_erase]
    by_cases hab : a = b
    · subst hab; simp [hu]
    · simp [hab]
  · rw [if_neg hu, Memory.find_insert]
    by_cases hab : a = b
    · simp [hab]
    · simp [hab]

/-! The canonical form -/

theorem Memory.rising_mono {lo lo' : Nat} (h : lo' ≤ lo) (hr : Memory.rising lo m = true) :
    Memory.rising lo' m = true := by
  cases m with
  | nil => rfl
  | cons c m =>
    simp only [Memory.rising, Bool.and_eq_true, decide_eq_true_eq] at hr ⊢
    exact ⟨⟨by omega, hr.1.2⟩, hr.2⟩

theorem Memory.rising_insert {lo a : Nat} (v : Byte) (hlo : lo ≤ a) (ha : a < memSize)
    (hr : Memory.rising lo m = true) : Memory.rising lo (Memory.insert a v m) = true := by
  induction m generalizing lo with
  | nil => simp [Memory.insert, Memory.rising, hlo, ha]
  | cons c m ih =>
    obtain ⟨c, w⟩ := c
    simp only [Memory.rising, Bool.and_eq_true, decide_eq_true_eq] at hr
    obtain ⟨⟨h1, h2⟩, h3⟩ := hr
    simp only [Memory.insert]
    split
    · simp only [Memory.rising, Bool.and_eq_true, decide_eq_true_eq]
      exact ⟨⟨hlo, ha⟩, ⟨⟨by omega, h2⟩, h3⟩⟩
    · split
      · subst_vars
        simp only [Memory.rising, Bool.and_eq_true, decide_eq_true_eq]
        exact ⟨⟨hlo, ha⟩, h3⟩
      · simp only [Memory.rising, Bool.and_eq_true, decide_eq_true_eq]
        exact ⟨⟨h1, h2⟩, ih (by omega) h3⟩

theorem Memory.rising_filter {lo : Nat} (p : Host.Cell → Bool) (hr : Memory.rising lo m = true) :
    Memory.rising lo (m.filter p) = true := by
  induction m generalizing lo with
  | nil => rfl
  | cons c m ih =>
    obtain ⟨c, w⟩ := c
    simp only [Memory.rising, Bool.and_eq_true, decide_eq_true_eq] at hr
    obtain ⟨⟨h1, h2⟩, h3⟩ := hr
    simp only [List.filter_cons]
    split
    · simp only [Memory.rising, Bool.and_eq_true, decide_eq_true_eq]
      exact ⟨⟨h1, h2⟩, ih h3⟩
    · exact Memory.rising_mono _ (by omega) (ih h3)

theorem Memory.all_insert (p : Host.Cell → Bool) (a : Nat) (v : Byte) (hp : p (a, v) = true) (hm : m.all p = true) :
    (Memory.insert a v m).all p = true := by
  induction m with
  | nil => simp [Memory.insert, hp]
  | cons c m ih =>
    obtain ⟨c, w⟩ := c
    simp only [List.all_cons, Bool.and_eq_true] at hm
    simp only [Memory.insert]
    split
    · simp only [List.all_cons, Bool.and_eq_true]; exact ⟨hp, hm⟩
    · split
      · simp only [List.all_cons, Bool.and_eq_true]; exact ⟨hp, hm.2⟩
      · simp only [List.all_cons, Bool.and_eq_true]; exact ⟨hm.1, ih hm.2⟩

theorem Memory.wf_filter (p : Host.Cell → Bool) (hw : Memory.wf font m = true) : Memory.wf font (m.filter p) = true := by
  simp only [Memory.wf, Bool.and_eq_true] at hw ⊢
  refine ⟨Memory.rising_filter _ p hw.1, ?_⟩
  rw [List.all_filter]
  rw [List.all_eq_true] at hw ⊢
  intro c hc
  rw [hw.2 c hc, Bool.or_true]

/-- A byte write keeps the canonical form. -/
theorem Memory.wf_write (a : Nat) (v : Byte) (ha : a < memSize) (hw : Memory.wf font m = true) :
    Memory.wf font (Memory.write font m a v) = true := by
  unfold Memory.write
  split
  · exact Memory.wf_filter font m _ hw
  · rename_i hu
    simp only [Memory.wf, Bool.and_eq_true] at hw ⊢
    exact ⟨Memory.rising_insert m v (Nat.zero_le _) ha hw.1, Memory.all_insert m _ a v (by simp [hu]) hw.2⟩

theorem memIndex_lt (a : Nat) : memIndex a < memSize := Nat.mod_lt _ (by decide)

/-- A run of byte writes keeps the canonical form. -/
theorem Memory.wf_writeRun (a : Nat) (bs : List Byte) (hw : Memory.wf font m = true) :
    Memory.wf font (Memory.writeRun font m a bs) = true := by
  induction bs generalizing m a with
  | nil => exact hw
  | cons b bs ih => exact ih _ _ (Memory.wf_write font m _ b (memIndex_lt a) hw)

/-- Re-installing the font keeps the canonical form. -/
theorem Memory.wf_installFont (hw : Memory.wf font m = true) : Memory.wf font (Memory.installFont m) = true :=
  Memory.wf_filter font m _ hw

/-! A run of writes -/

/-- A byte outside the indices of a run of writes is as it was. -/
theorem Memory.read_writeRun_of_ne (a : Nat) (bs : List Byte) (b : Nat) (h : ∀ k < bs.length, memIndex (a + k) ≠ b) :
    Memory.read font (Memory.writeRun font m a bs) b = Memory.read font m b := by
  induction bs generalizing m a with
  | nil => rfl
  | cons v vs ih =>
    show Memory.read font (Memory.writeRun font (Memory.write font m (memIndex a) v) (a + 1) vs) b = _
    rw [ih]
    · rw [Memory.read_write, if_neg (by simpa using h 0 (by simp))]
    · intro k hk
      have := h (k + 1) (by simp; omega)
      rwa [Nat.add_assoc, Nat.add_comm 1 k]

/-- The k-th byte of a run of at most 4096 writes is the byte the run has there. -/
theorem Memory.read_writeRun (a : Nat) (bs : List Byte) (hl : bs.length ≤ memSize) (k : Nat) (hk : k < bs.length) :
    Memory.read font (Memory.writeRun font m a bs) (memIndex (a + k)) = bs[k] := by
  induction bs generalizing m a k with
  | nil => simp at hk
  | cons v vs ih =>
    simp only [List.length_cons] at hl hk
    show Memory.read font (Memory.writeRun font (Memory.write font m (memIndex a) v) (a + 1) vs) _ = _
    cases k with
    | zero =>
      rw [Memory.read_writeRun_of_ne]
      · simp [Memory.read_write]
      · intro j hj
        simp only [memIndex, memSize] at hl ⊢
        omega
    | succ k =>
      have h1 : a + (k + 1) = a + 1 + k := by omega
      rw [h1, ih _ _ (by omega) k (by omega)]
      rfl

/-- Re-installing the font: the font bytes read as the font, every other byte is as it was (R340). -/
theorem Memory.read_installFont (a : Nat) :
    Memory.read font (Memory.installFont m) a = if h : a < fontSize then font[a] else Memory.read font m a := by
  have hf : Memory.find (Memory.installFont m) a = if a < fontSize then none else Memory.find m a := by
    induction m with
    | nil => simp [Memory.installFont, Memory.find]
    | cons c m ih =>
      obtain ⟨c, w⟩ := c
      simp only [Memory.installFont, List.filter_cons] at ih ⊢
      by_cases hc : fontSize ≤ c
      · simp only [hc, decide_true, if_true, Memory.find, ih]
        by_cases hca : c = a
        · subst hca; simp [Nat.not_lt.mpr hc]
        · simp [hca]
      · simp only [hc, decide_false, Bool.false_eq_true, if_false, ih, Memory.find]
        by_cases ha : a < fontSize
        · simp [ha]
        · have : ¬ c = a := by omega
          simp [ha, this]
  unfold Memory.read
  rw [hf]
  by_cases ha : a < fontSize
  · simp [ha, Memory.unlisted]
  · simp [ha]

/-! The same, in a state -/

/-- A byte that memory holds is the same in two states with the same memory and the same font. -/
theorem State.memByte_congr {s t : State} (hm : t.mem = s.mem) (hp : t.params = s.params) (a : Nat) :
    t.memByte a = s.memByte a := by
  simp only [State.memByte, hm, hp]

theorem State.memByte_writeMem (s : State) (a : Nat) (bs : List Byte) (hl : bs.length ≤ memSize) (k : Nat)
    (hk : k < bs.length) : (s.writeMem a bs).memByte (memIndex (a + k)) = bs[k] :=
  Memory.read_writeRun _ _ a bs hl k hk

theorem State.memByte_writeMem_of_ne (s : State) (a : Nat) (bs : List Byte) (b : Nat)
    (h : ∀ k < bs.length, memIndex (a + k) ≠ b) : (s.writeMem a bs).memByte b = s.memByte b :=
  Memory.read_writeRun_of_ne _ _ a bs b h

@[simp] theorem State.memByte_advance (s : State) (a : Nat) : s.advance.memByte a = s.memByte a := rfl
@[simp] theorem State.memByte_setV (s : State) (x : Nibble) (b : Byte) (a : Nat) :
    (s.setV x b).memByte a = s.memByte a := rfl

end Sys2Proof.Machine
end

