-- ==== Sys2Proof/Laws/Registers.lean ====
section
/-! SUPPORT. The general registers: what a read gives after each update (R20, R21), and the register block of Fx55 and
Fx65. -/

namespace Sys2Proof.Machine

variable (s : State)

/-- A register read after a register write. -/
theorem State.getV_setV (x y : Nibble) (b : Byte) : (s.setV x b).getV y = if y = x then b else s.getV y := by
  simp only [State.getV, State.setV, Vector.getElem_set]
  by_cases h : y = x
  · simp [h]
  · have : ¬ x.toNat = y.toNat := fun e => h (BitVec.eq_of_toNat_eq e.symm)
    simp [h, this]

@[simp] theorem State.getV_setV_same (x : Nibble) (b : Byte) : (s.setV x b).getV x = b := by
  simp [State.getV_setV]

theorem State.getV_setV_of_ne {x y : Nibble} (b : Byte) (h : y ≠ x) : (s.setV x b).getV y = s.getV y := by
  simp [State.getV_setV, h]

/-- A read sees only the register file. -/
theorem State.getV_congr {s t : State} (h : t.v = s.v) (x : Nibble) : t.getV x = s.getV x := by
  simp only [State.getV, h]

@[simp] theorem State.getV_setI (w : Word) (x : Nibble) : (s.setI w).getV x = s.getV x := rfl
@[simp] theorem State.getV_setDt (b : Byte) (x : Nibble) : (s.setDt b).getV x = s.getV x := rfl
@[simp] theorem State.getV_setSt (b : Byte) (x : Nibble) : (s.setSt b).getV x = s.getV x := rfl
@[simp] theorem State.getV_setPc (w : Word) (x : Nibble) : (s.setPc w).getV x = s.getV x := rfl
@[simp] theorem State.getV_advance (x : Nibble) : s.advance.getV x = s.getV x := rfl
@[simp] theorem State.getV_pop (x : Nibble) : s.pop.getV x = s.getV x := rfl
@[simp] theorem State.getV_drawn (x : Nibble) : s.drawn.getV x = s.getV x := rfl
@[simp] theorem State.getV_writeMem (a : Nat) (bs : List Byte) (x : Nibble) : (s.writeMem a bs).getV x = s.getV x := rfl
@[simp] theorem State.getV_startCycle (x : Nibble) : s.startCycle.getV x = s.getV x := rfl
@[simp] theorem State.getV_skipIf (c : Bool) (x : Nibble) : (s.skipIf c).getV x = s.getV x :=
  State.getV_congr (s.skipIf_v c) x
@[simp] theorem State.getV_push (w : Word) (x : Nibble) : (s.push w).getV x = s.getV x :=
  State.getV_congr (s.push_v w) x
@[simp] theorem State.getV_takeFault (c : FaultCause) (op : Word) (n : Nat) (x : Nibble) :
    (s.takeFault c op n).getV x = s.getV x := State.getV_congr (s.takeFault_v c op n) x
@[simp] theorem State.getV_cycleTail (t : Bool) (x : Nibble) : (s.cycleTail t).getV x = s.getV x :=
  State.getV_congr (s.cycleTail_v t) x

/-! The register block (R224, R225) -/

@[simp] theorem State.firstRegs_length (n : Nat) : (s.firstRegs n).length = n := by simp [State.firstRegs]

theorem State.firstRegs_getElem (n k : Nat) (h : k < (s.firstRegs n).length) :
    (s.firstRegs n)[k] = s.getV (BitVec.ofNat 4 k) := by simp [State.firstRegs]

@[simp] theorem State.readRun_length (a n : Nat) : (s.readRun a n).length = n := by simp [State.readRun]

theorem State.readRun_getElem (a n k : Nat) (h : k < (s.readRun a n).length) :
    (s.readRun a n)[k] = s.memByte (memIndex (a + k)) := by simp [State.readRun]

/-- Loading a register block changes the register file and nothing else. -/
theorem State.setRegsFrom_eq (k : Nat) (bs : List Byte) : s.setRegsFrom k bs = { s with v := (s.setRegsFrom k bs).v } := by
  induction bs generalizing s k with
  | nil => rfl
  | cons b bs ih =>
    show (s.setV _ b).setRegsFrom (k + 1) bs = _
    rw [ih]
    rfl

/-- What loading a register block leaves in each register: the bytes in order from register `k` on, every other register
as it was. -/
theorem State.getV_setRegsFrom (k : Nat) (bs : List Byte) (hk : k + bs.length ≤ 16) (z : Nibble) :
    (s.setRegsFrom k bs).getV z =
      if h : k ≤ z.toNat ∧ z.toNat < k + bs.length then bs[z.toNat - k]'(by omega) else s.getV z := by
  induction bs generalizing s k with
  | nil =>
    have : ¬(k ≤ z.toNat ∧ z.toNat < k + ([] : List Byte).length) := by simp
    rw [dif_neg this]
    rfl
  | cons b bs ih =>
    simp only [List.length_cons] at hk
    show ((s.setV _ b).setRegsFrom (k + 1) bs).getV z = _
    rw [ih _ _ (by omega), State.getV_setV]
    have hz : (z = BitVec.ofNat 4 k) ↔ z.toNat = k := by
      constructor
      · rintro rfl; simp; omega
      · rintro rfl; simp
    simp only [hz, List.length_cons]
    by_cases h1 : k + 1 ≤ z.toNat ∧ z.toNat < k + 1 + bs.length
    · rw [dif_pos h1, dif_pos (by omega)]
      have : z.toNat - k = (z.toNat - (k + 1)) + 1 := by omega
      simp only [this, List.getElem_cons_succ]
    · rw [dif_neg h1]
      by_cases h2 : z.toNat = k
      · simp [h2]
      · rw [if_neg h2, dif_neg (by omega)]

end Sys2Proof.Machine
end

