-- ==== Sys2Proof/Laws/Display.lean ====
section
/-! SUPPORT. The framebuffer compositer: one cell flipped (R131), and what a whole sprite does, said cell by cell: the
loops of R131 flip exactly the cells the sprite's set bits land on, each once, and report a collision when one of them
was 1 (R133). -/

namespace Sys2Proof.Machine

/-! One cell -/

theorem Fb.cell_flip (fb : Vector (BitVec 64) 32) (p q : Nat) (hp : p < 2048) :
    Fb.cell (Fb.flip fb p) q = (Fb.cell fb q != decide (p = q)) := by
  have h1 : p / fbWidth < 32 := by simp only [fbWidth]; omega
  simp only [Fb.cell, Fb.flip, Vector.getElem?_setIfInBounds, fbWidth] at h1 ⊢
  have e : p = q ↔ p / 64 = q / 64 ∧ p % 64 = q % 64 := by omega
  by_cases hr : p / 64 = q / 64
  · have h2 : q / 64 < 32 := hr ▸ h1
    by_cases hc : p % 64 = q % 64
    · have hpq : p = q := e.mpr ⟨hr, hc⟩
      subst hpq
      simp [h1, Nat.mod_lt]
    · have hpq : ¬ p = q := fun h => hc (e.mp h).2
      simp [hr, h2, hc, hpq, BitVec.getLsbD_twoPow]
  · have hpq : ¬ p = q := fun h => hr (e.mp h).1
    simp [hr, hpq]

theorem wrapCell_lt (col row : Nat) : wrapCell col row < 2048 := by
  simp only [wrapCell, fbHeight, fbWidth]; omega

/-! The cells of a sprite -/

/-- The cells that the set bits of one sprite row land on, left to right. -/
def rowCells (px row : Nat) (b : Byte) : List Nat :=
  ((List.range 8).filter (fun c => b.getLsbD (7 - c))).map (fun c => wrapCell (px + c) row)

/-- The cells that a sprite's set bits land on, in the order R131 visits them. -/
def spriteCells (px : Nat) : Nat → List Byte → List Nat
  | _, [] => []
  | py, b :: bs => rowCells px py b ++ spriteCells px (py + 1) bs

theorem Drawing.row_eq (d : Drawing) (px row : Nat) (b : Byte) :
    d.row px row b = (rowCells px row b).foldl Drawing.plot d := by
  simp only [Drawing.row, rowCells, List.foldl_map, List.foldl_filter]

/-- The two loops of R131 plot the sprite's cells. -/
theorem Drawing.sprite_eq (px : Nat) (d : Drawing) (py : Nat) (bs : List Byte) :
    Drawing.sprite px d py bs = (spriteCells px py bs).foldl Drawing.plot d := by
  induction bs generalizing d py with
  | nil => rfl
  | cons b bs ih =>
    simp only [Drawing.sprite, spriteCells, List.foldl_append, ih, Drawing.row_eq]

theorem mem_rowCells {px row : Nat} {b : Byte} {p : Nat} :
    p ∈ rowCells px row b ↔ ∃ c < 8, b.getLsbD (7 - c) = true ∧ p = wrapCell (px + c) row := by
  simp only [rowCells, List.mem_map, List.mem_filter, List.mem_range]
  constructor
  · rintro ⟨c, ⟨h1, h2⟩, rfl⟩; exact ⟨c, h1, h2, rfl⟩
  · rintro ⟨c, h1, h2, rfl⟩; exact ⟨c, ⟨h1, h2⟩, rfl⟩

theorem mem_spriteCells {px py : Nat} {bs : List Byte} {p : Nat} :
    p ∈ spriteCells px py bs ↔
      ∃ (r : Nat) (h : r < bs.length) (c : Nat), c < 8 ∧ bs[r].getLsbD (7 - c) = true ∧
        p = wrapCell (px + c) (py + r) := by
  induction bs generalizing py with
  | nil => simp [spriteCells]
  | cons b bs ih =>
    simp only [spriteCells, List.mem_append, mem_rowCells, ih]
    constructor
    · rintro (⟨c, hc, hb, rfl⟩ | ⟨r, hr, c, hc, hb, rfl⟩)
      · exact ⟨0, by simp, c, hc, hb, rfl⟩
      · exact ⟨r + 1, by simpa using hr, c, hc, hb, by rw [Nat.add_assoc, Nat.add_comm 1 r]⟩
    · rintro ⟨r, hr, c, hc, hb, rfl⟩
      cases r with
      | zero => exact .inl ⟨c, hc, hb, rfl⟩
      | succ r => exact .inr ⟨r, by simpa using hr, c, hc, hb, by rw [Nat.add_assoc, Nat.add_comm 1 r]⟩

theorem nodup_rowCells (px row : Nat) (b : Byte) : (rowCells px row b).Nodup := by
  refine List.Nodup.map_on ?_ (List.Nodup.filter _ List.nodup_range)
  intro c hc d hd h
  simp only [List.mem_filter, List.mem_range] at hc hd
  simp only [wrapCell, fbHeight, fbWidth] at h
  omega

/-- A sprite of at most 32 rows never lands on one cell twice (R131, corner cases). -/
theorem nodup_spriteCells (px py : Nat) (bs : List Byte) (h : bs.length ≤ 32) : (spriteCells px py bs).Nodup := by
  induction bs generalizing py with
  | nil => exact List.nodup_nil
  | cons b bs ih =>
    simp only [List.length_cons] at h
    refine List.Nodup.append (nodup_rowCells px py b) (ih _ (by omega)) ?_
    intro p h1 h2
    obtain ⟨c, hc, _, rfl⟩ := mem_rowCells.mp h1
    obtain ⟨r, hr, d, hd, _, he⟩ := mem_spriteCells.mp h2
    simp only [wrapCell, fbHeight, fbWidth] at he
    omega

/-! What plotting a list of distinct cells does -/

theorem cell_foldl_plot (d : Drawing) (ps : List Nat) (hn : ps.Nodup) (hl : ∀ p ∈ ps, p < 2048) (q : Nat) :
    Fb.cell (ps.foldl Drawing.plot d).fb q = (Fb.cell d.fb q != decide (q ∈ ps)) := by
  induction ps generalizing d with
  | nil => simp
  | cons p ps ih =>
    rw [List.nodup_cons] at hn
    simp only [List.foldl_cons]
    rw [ih _ hn.2 (fun r hr => hl r (List.mem_cons_of_mem _ hr))]
    simp only [Drawing.plot, Fb.cell_flip _ _ _ (hl p List.mem_cons_self), List.mem_cons]
    by_cases hq : q = p
    · subst hq; simp [hn.1]
    · simp [hq, Ne.symm hq]

theorem collide_foldl_plot (d : Drawing) (ps : List Nat) (hn : ps.Nodup) (hl : ∀ p ∈ ps, p < 2048) :
    (ps.foldl Drawing.plot d).collide = (d.collide || ps.any (fun p => Fb.cell d.fb p)) := by
  induction ps generalizing d with
  | nil => simp
  | cons p ps ih =>
    rw [List.nodup_cons] at hn
    simp only [List.foldl_cons, List.any_cons]
    rw [ih _ hn.2 (fun r hr => hl r (List.mem_cons_of_mem _ hr))]
    have h : ∀ q ∈ ps, Fb.cell (d.plot p).fb q = Fb.cell d.fb q := by
      intro q hq
      have hne : ¬ p = q := fun e => hn.1 (e ▸ hq)
      simp [Drawing.plot, Fb.cell_flip _ _ _ (hl p List.mem_cons_self), hne]
    have h2 : ps.any (fun q => Fb.cell (d.plot p).fb q) = ps.any (fun q => Fb.cell d.fb q) := by
      rw [Bool.eq_iff_iff, List.any_eq_true, List.any_eq_true]
      constructor
      · rintro ⟨q, hq, e⟩; exact ⟨q, hq, by rw [← h q hq]; exact e⟩
      · rintro ⟨q, hq, e⟩; exact ⟨q, hq, by rw [h q hq]; exact e⟩
    rw [h2, ← Bool.or_assoc]
    rfl

theorem spriteCells_lt {px py : Nat} {bs : List Byte} {p : Nat} (h : p ∈ spriteCells px py bs) : p < 2048 := by
  obtain ⟨_, _, _, _, _, rfl⟩ := mem_spriteCells.mp h
  exact wrapCell_lt _ _

/-- Each cell after a sprite is composited: flipped exactly when a set bit lands on it (R133). -/
theorem cell_sprite (px py : Nat) (d : Drawing) (bs : List Byte) (h : bs.length ≤ 32) (q : Nat) :
    Fb.cell (Drawing.sprite px d py bs).fb q = (Fb.cell d.fb q != decide (q ∈ spriteCells px py bs)) := by
  rw [Drawing.sprite_eq]
  exact cell_foldl_plot d _ (nodup_spriteCells px py bs h) (fun _ => spriteCells_lt) q

/-- The collision of a sprite: a set bit lands on a cell that held 1 (R133). -/
theorem collide_sprite (px py : Nat) (d : Drawing) (bs : List Byte) (h : bs.length ≤ 32) :
    (Drawing.sprite px d py bs).collide = (d.collide || (spriteCells px py bs).any (fun p => Fb.cell d.fb p)) := by
  rw [Drawing.sprite_eq]
  exact collide_foldl_plot d _ (nodup_spriteCells px py bs h) (fun _ => spriteCells_lt)

/-- Two framebuffers with the same 2048 cells are equal (R34). -/
theorem Fb.ext_cell {f g : Vector (BitVec 64) 32} (h : ∀ p < 2048, Fb.cell f p = Fb.cell g p) : f = g := by
  ext y hy x hx
  have := h (y * 64 + x) (by omega)
  have e1 : (y * 64 + x) / 64 = y := by omega
  have e2 : (y * 64 + x) % 64 = x := by omega
  simpa [Fb.cell, fbWidth, e1, e2, hy, BitVec.getLsbD_eq_getElem hx] using this

/-- A cleared framebuffer has every cell 0 (R130). -/
@[simp] theorem Fb.cell_clear (p : Nat) : Fb.cell (Vector.replicate 32 0) p = false := by
  simp only [Fb.cell, Vector.getElem?_replicate]
  split <;> simp

end Sys2Proof.Machine
end

