-- ==== Sys2Proof/Laws/Encoding.lean ====
section
/-! SUPPORT. The fields of an opcode built from its parts, a word rebuilt from its fields, and the two bytes of a word
(R67, R91, R92). -/

namespace Sys2Proof

/-! Formats N, XKK, X: family, x, low byte -/

@[simp] theorem opFamily_xkk (h x : Nibble) (kk : Byte) : opFamily (h ++ x ++ kk) = h := by
  ext i hi; simp [opFamily]; grind

@[simp] theorem opX_xkk (h x : Nibble) (kk : Byte) : opX (h ++ x ++ kk) = x := by
  ext i hi; simp [opX]; grind

@[simp] theorem opKk_xkk (h x : Nibble) (kk : Byte) : opKk (h ++ x ++ kk) = kk := by
  ext i hi; simp [opKk]; grind

/-- A word is its family, its x and its low byte. -/
theorem word_eq_xkk (op : Word) : opFamily op ++ opX op ++ opKk op = op := by
  ext i hi; simp [opFamily, opX, opKk]; grind

/-! Formats XY, XYN: family, x, y, low nibble -/

@[simp] theorem opFamily_xyn (h x y n : Nibble) : opFamily (h ++ x ++ y ++ n) = h := by
  ext i hi; simp [opFamily]; grind

@[simp] theorem opX_xyn (h x y n : Nibble) : opX (h ++ x ++ y ++ n) = x := by
  ext i hi; simp [opX]; grind

@[simp] theorem opY_xyn (h x y n : Nibble) : opY (h ++ x ++ y ++ n) = y := by
  ext i hi; simp [opY]; grind

@[simp] theorem opN_xyn (h x y n : Nibble) : opN (h ++ x ++ y ++ n) = n := by
  ext i hi; simp [opN]; grind

/-- A word is its four nibbles. -/
theorem word_eq_xyn (op : Word) : opFamily op ++ opX op ++ opY op ++ opN op = op := by
  ext i hi; simp [opFamily, opX, opY, opN]; grind

/-! Format NNN: family, 12-bit address -/

@[simp] theorem opFamily_nnn (h : Nibble) (nnn : Addr) : opFamily (h ++ nnn) = h := by
  ext i hi; simp [opFamily]; grind

@[simp] theorem opNnn_nnn (h : Nibble) (nnn : Addr) : opNnn (h ++ nnn) = nnn := by
  ext i hi; simp [opNnn]; grind

/-- A word is its family and its 12-bit address. -/
theorem word_eq_nnn (op : Word) : opFamily op ++ opNnn op = op := by
  ext i hi; simp [opFamily, opNnn]; grind

/-! The four masks of the opcode map (R96, R97) -/

theorem and_F000 (op : Word) : op &&& 0xF000#16 = opFamily op ++ 0x000#12 := by
  ext i hi
  have : i < 16 := hi
  simp [opFamily]
  interval_cases i <;> grind

theorem and_F00F (op : Word) : op &&& 0xF00F#16 = opFamily op ++ 0x00#8 ++ opN op := by
  ext i hi
  have : i < 16 := hi
  simp [opFamily, opN]
  interval_cases i <;> grind

theorem and_F0FF (op : Word) : op &&& 0xF0FF#16 = opFamily op ++ 0x0#4 ++ opKk op := by
  ext i hi
  have : i < 16 := hi
  simp [opFamily, opKk]
  interval_cases i <;> grind

theorem and_FFFF (op : Word) : op &&& 0xFFFF#16 = op := BitVec.and_allOnes

/-! Bytes -/

@[simp] theorem opHi_opOfBytes (hi lo : Byte) : opHi (opOfBytes hi lo) = hi := by
  ext i h; simp [opHi, opOfBytes]; grind

@[simp] theorem opLo_opOfBytes (hi lo : Byte) : opLo (opOfBytes hi lo) = lo := by
  ext i h; simp [opLo, opOfBytes]; grind

@[simp] theorem opOfBytes_hi_lo (op : Word) : opOfBytes (opHi op) (opLo op) = op := by
  ext i hi; simp [opOfBytes, opHi, opLo]; grind

/-- Decoding an instruction's bytes is decoding its word, and the rest of the bytes is left. -/
theorem decodeBytes_encodeBytes (strict : Bool) (i j : Instr) (rest : List Byte)
    (h : decodeOp strict (encode i) = .instr j) : decodeBytes strict (encodeBytes i ++ rest) = .instr j rest := by
  simp [decodeBytes, encodeBytes, h]

/-- What `instrIf` answers when it answers an instruction. -/
theorem instrIf_eq_instr {op : Word} {ok : Bool} {i j : Instr} : instrIf op ok i = .instr j ↔ ok = true ∧ i = j := by
  unfold instrIf
  cases ok <;> simp

/-- What `instrIf` answers when it answers Invalid. -/
theorem instrIf_eq_invalid {op w : Word} {ok : Bool} {i : Instr} : instrIf op ok i = .invalid w ↔ ok = false ∧ op = w := by
  unfold instrIf
  cases ok <;> simp

end Sys2Proof
end

