-- ==== Sys2Proof/Laws/Operands.lean ====
section
/-! SUPPORT. What each shared operation can do, said once: the effective-address check, taking a fault, the key index,
the key wait and the flag-then-value write. Proofs cite these and do not unfold the operations. -/

namespace Sys2Proof.Machine

/-! Effective addresses (R64, R72) -/

@[simp] theorem eaRangeFault_wrap (base n : Nat) : eaRangeFault .wrap base n = none := by
  simp [eaRangeFault, eaFault]

theorem eaRangeFault_fault_none (base n : Nat) : eaRangeFault .fault base n = none ↔ n = 0 ∨ base + n ≤ memSize := by
  simp only [eaRangeFault, eaFault, memSize, List.findSome?_eq_none_iff, List.mem_range]
  constructor
  · intro h
    by_contra hc
    have := h (n - 1) (by omega)
    rw [if_pos (by omega)] at this
    exact absurd this (by simp)
  · intro h k hk
    rw [if_neg (by omega)]

/-- EA faults on none of the addresses exactly when the range is good. -/
theorem eaRangeFault_none_iff (s : State) (n : Nat) :
    eaRangeFault s.params.addrPolicy s.i.toNat n = none ↔ s.rangeOk n := by
  unfold State.rangeOk
  cases h : s.params.addrPolicy
  · simp
  · simp [eaRangeFault_fault_none]

/-- The address EA faults on is the one at the smallest bad offset. -/
theorem eaRangeFault_of_first (base n k : Nat) (hk : k < n) (hb : memSize ≤ base + k)
    (hj : ∀ j < k, base + j < memSize) : eaRangeFault .fault base n = some (base + k) := by
  rw [eaRangeFault, List.findSome?_eq_some_iff]
  refine ⟨List.range k, k, (List.range (n - k - 1)).map (fun j => k + 1 + j), ?_, ?_, ?_⟩
  · have : n = k + (1 + (n - k - 1)) := by omega
    conv_lhs => rw [this, List.range_add]
    congr 1
    rw [List.range_add]
    simp [List.range_succ, Nat.add_assoc]
  · simp [eaFault, hb]
  · intro j hm
    simp only [eaFault]
    rw [if_neg (by have := hj j (List.mem_range.mp hm); omega)]

/-- The address EA faults on, if any, is at some bad offset. -/
theorem eaRangeFault_some (pol : AddrPolicy) (base n a : Nat) (h : eaRangeFault pol base n = some a) :
    pol = .fault ∧ ∃ k < n, a = base + k ∧ memSize ≤ a ∧ ∀ j < k, base + j < memSize := by
  cases pol with
  | wrap => simp at h
  | fault =>
    refine ⟨rfl, ?_⟩
    have hne : ¬(n = 0 ∨ base + n ≤ memSize) := by
      rw [← eaRangeFault_fault_none, h]; simp
    by_cases hb : memSize ≤ base
    · have h2 := eaRangeFault_of_first base n 0 (by omega) hb (by simp)
      rw [h] at h2
      exact ⟨0, by omega, by simpa using h2, by simp at h2; omega, by simp⟩
    · have h2 := eaRangeFault_of_first base n (memSize - base) (by simp only [memSize] at *; omega)
        (by simp only [memSize] at *; omega) (by intro j hj; simp only [memSize] at *; omega)
      rw [h] at h2
      simp only [Option.some.injEq] at h2
      exact ⟨memSize - base, by simp only [memSize] at *; omega, h2, by simp only [memSize] at *; omega,
        by intro j hj; simp only [memSize] at *; omega⟩

/-! Faults (R284, R285) -/

/-- Taking a fault is the precise fault of R284 and R285. -/
theorem State.takeFault_faultedTo (s : State) (c : FaultCause) (op : Word) (n : Nat) :
    s.FaultedTo (s.takeFault c op n) c op n := by
  unfold State.FaultedTo State.takeFault
  split <;> rename_i h <;> simp [h, State.recordFault, State.advance, State.setPc, State.pcNext]

theorem State.eq_takeFault_of_faultedTo {s t : State} {c : FaultCause} {op : Word} {n : Nat}
    (h : s.FaultedTo t c op n) : t = s.takeFault c op n := h.trans (s.takeFault_faultedTo c op n).symm

/-- A memory instruction whose addresses are all good reaches its effect. -/
theorem State.withRange_ok {s : State} {n : Nat} (i : Instr) (done : State) (h : s.rangeOk n) :
    s.withRange i n done = .next done := by
  unfold State.withRange
  rw [(eaRangeFault_none_iff s n).mpr h]

/-- A memory instruction with a bad address faults on the first one. -/
theorem State.withRange_bad {s : State} {n k : Nat} (i : Instr) (done : State) (h : s.firstBad n k) :
    s.withRange i n done = .next (s.takeFault .addressOutOfRange (encode i) (s.i.toNat + k)) := by
  obtain ⟨hp, hk, hb, hj⟩ := h
  unfold State.withRange
  rw [hp, eaRangeFault_of_first _ _ k hk hb hj]

/-- Everything a memory instruction can do. -/
theorem State.withRange_cases (s : State) (i : Instr) (n : Nat) (done : State) :
    (s.rangeOk n ∧ s.withRange i n done = .next done) ∨
    ∃ k, s.firstBad n k ∧
      s.withRange i n done = .next (s.takeFault .addressOutOfRange (encode i) (s.i.toNat + k)) := by
  cases h : eaRangeFault s.params.addrPolicy s.i.toNat n with
  | none => exact .inl ⟨(eaRangeFault_none_iff s n).mp h, State.withRange_ok i done ((eaRangeFault_none_iff s n).mp h)⟩
  | some a =>
    obtain ⟨hp, k, hk, rfl, hb, hj⟩ := eaRangeFault_some _ _ _ _ h
    exact .inr ⟨k, ⟨hp, hk, hb, hj⟩, State.withRange_bad i done ⟨hp, hk, hb, hj⟩⟩

/-! The key index and the key wait (R252, R253) -/

theorem keyIndex_of_lt (pol : KeyIndexPolicy) (v : Byte) (h : v.toNat < 16) :
    keyIndex pol v = some (BitVec.ofNat 4 v.toNat) := if_pos h

theorem keyIndex_fault (v : Byte) (h : 16 ≤ v.toNat) : keyIndex .fault v = none := if_neg (Nat.not_lt.mpr h)

theorem keyIndex_mask (v : Byte) (h : 16 ≤ v.toNat) : keyIndex .mask v = some (v.extractLsb' 0 4) :=
  if_neg (Nat.not_lt.mpr h)

/-- Everything a key skip can do. -/
theorem State.skipOnKey_cases (s : State) (i : Instr) (x : Nibble) (w : Bool) :
    (∃ k, keyIndex s.params.keyIndexPolicy (s.getV x) = some k ∧
      s.skipOnKey i x w = .next (s.skipIf (s.keyHeld k == w))) ∨
    (keyIndex s.params.keyIndexPolicy (s.getV x) = none ∧ 16 ≤ (s.getV x).toNat ∧
      s.skipOnKey i x w = .next (s.takeFault .addressOutOfRange (encode i) (s.getV x).toNat)) := by
  unfold State.skipOnKey
  cases h : keyIndex s.params.keyIndexPolicy (s.getV x) with
  | some k => exact .inl ⟨k, rfl, rfl⟩
  | none =>
    refine .inr ⟨rfl, ?_, rfl⟩
    by_contra hc
    rw [keyIndex_of_lt _ _ (by omega)] at h
    exact absurd h (by simp)

theorem mem_allKeys (k : Nibble) : k ∈ allKeys := by
  simp only [allKeys, List.mem_map, List.mem_range]
  exact ⟨k.toNat, k.isLt, by simp⟩

/-- No key qualifies: the wait goes on. -/
theorem State.waitKey_none_iff (s : State) : s.waitKey = none ↔ ∀ k, s.keyQualifies k = false := by
  simp only [State.waitKey, List.find?_eq_none]
  constructor
  · intro h k; simpa using h k (mem_allKeys k)
  · intro h k _; simp [h k]

/-- The key that ends the wait is the lowest that qualifies (R254). -/
theorem State.waitKey_some_iff (s : State) (k : Nibble) :
    s.waitKey = some k ↔ s.keyQualifies k = true ∧ ∀ j < k, s.keyQualifies j = false := by
  have hmin : ∀ k, s.waitKey = some k → s.keyQualifies k = true ∧ ∀ j < k, s.keyQualifies j = false := by
    intro k hk
    simp only [State.waitKey, allKeys] at hk
    rw [List.find?_eq_some_iff_getElem] at hk
    obtain ⟨hq, n, hn, he, hlt⟩ := hk
    refine ⟨hq, fun j hj => ?_⟩
    simp only [List.length_map, List.length_range] at hn
    simp only [List.getElem_map, List.getElem_range] at he hlt
    subst he
    have hjn : j.toNat < n := by
      have : j.toNat < (BitVec.ofNat 4 n).toNat := hj
      simp only [BitVec.toNat_ofNat] at this
      omega
    have := hlt j.toNat hjn
    simpa using this
  constructor
  · exact hmin k
  · rintro ⟨hq, hl⟩
    cases h : s.waitKey with
    | none => rw [State.waitKey_none_iff] at h; simp [h k] at hq
    | some j =>
      obtain ⟨hj, hjl⟩ := hmin j h
      have h1 : ¬ j < k := fun hlt => by simp [hl j hlt] at hj
      have h2 : ¬ k < j := fun hlt => by simp [hjl k hlt] at hq
      exact congrArg some (BitVec.le_antisymm (BitVec.not_lt.mp h2) (BitVec.not_lt.mp h1))

/-! The flag and the value (R106, R191) -/

theorem State.flagThenValue_latched {s : State} (x : Nibble) (u : RefuseList → Bool) (f : State → Bool) (r : State → Byte)
    (h : s.params.vfOperand = .latched) :
    s.flagThenValue x u f r = .next (((s.setV vf (flagByte (f s))).setV x (r s)).advance) := by
  simp only [State.flagThenValue, h]

theorem State.flagThenValue_sequential {s : State} (x : Nibble) (u : RefuseList → Bool) (f : State → Bool) (r : State → Byte)
    (h : s.params.vfOperand = .sequential) :
    s.flagThenValue x u f r =
      .next (((s.setV vf (flagByte (f s))).setV x (r (s.setV vf (flagByte (f s))))).advance) := by
  simp only [State.flagThenValue, h]

/-- Under `refuse` a form that the list does not name runs as the rules are written. -/
theorem State.flagThenValue_unlisted {s : State} {l : RefuseList} (x : Nibble) (u : RefuseList → Bool)
    (f : State → Bool) (r : State → Byte) (h : s.params.vfOperand = .refuse l) (hu : u l = false) :
    s.flagThenValue x u f r = .next (((s.setV vf (flagByte (f s))).setV x (r s)).advance) := by
  simp [State.flagThenValue, h, hu]

/-- Under `refuse` a form that the list names is refused. -/
theorem State.flagThenValue_listed {s : State} {l : RefuseList} (x : Nibble) (u : RefuseList → Bool)
    (f : State → Bool) (r : State → Byte) (h : s.params.vfOperand = .refuse l) (hu : u l = true) :
    s.flagThenValue x u f r = .refused .vfOperand := by
  simp [State.flagThenValue, h, hu]

/-- Everything a flag-setting instruction can do: two register writes and the default advance, or a refusal. -/
theorem State.flagThenValue_cases (s : State) (x : Nibble) (u : RefuseList → Bool) (f : State → Bool)
    (r : State → Byte) :
    (∃ b, s.flagThenValue x u f r = .next (((s.setV vf (flagByte (f s))).setV x b).advance)) ∨
    (∃ l, s.params.vfOperand = .refuse l ∧ u l = true ∧ s.flagThenValue x u f r = .refused .vfOperand) := by
  cases h : s.params.vfOperand with
  | latched => exact .inl ⟨_, State.flagThenValue_latched x u f r h⟩
  | sequential => exact .inl ⟨_, State.flagThenValue_sequential x u f r h⟩
  | refuse l =>
    cases hu : u l with
    | false => exact .inl ⟨_, State.flagThenValue_unlisted x u f r h hu⟩
    | true => exact .inr ⟨l, rfl, hu, State.flagThenValue_listed x u f r h hu⟩


/-! 8-bit arithmetic (R181, R186 to R190) -/

theorem add8_toNat (a b : Byte) : (add8 a b).toNat = (a.toNat + b.toNat) % 256 := by
  simp [add8]

theorem sub8_toNat (a b : Byte) :
    (sub8 a b).toNat = if b.toNat ≤ a.toNat then a.toNat - b.toNat else a.toNat + 256 - b.toNat := by
  have := a.isLt
  have := b.isLt
  simp only [sub8, BitVec.toNat_ofNat]
  split <;> omega

theorem shr8_toNat (a : Byte) : (shr8 a).toNat = a.toNat / 2 := by
  have := a.isLt
  simp only [shr8, BitVec.toNat_ofNat]
  omega

theorem shl8_toNat (a : Byte) : (shl8 a).toNat = 2 * a.toNat % 256 := by
  simp [shl8]

theorem countDown_toNat (b : Byte) : (countDown b).toNat = b.toNat - 1 := by
  have := b.isLt
  simp only [countDown, BitVec.toNat_ofNat]
  omega

theorem zext16_toNat (nnn : Addr) : (zext16 nnn).toNat = nnn.toNat := by
  have := nnn.isLt
  simp [zext16]
  omega

end Sys2Proof.Machine
end

