-- ==== Sys2Proof/Laws/PerInstr.lean ====
section
/-! SUPPORT. Statements made per instruction: the encoding of a well-formed instruction matches that instruction's own
row of the opcode map, under both values of DECODE_STRICT (R96, R97). -/

namespace Sys2Proof.Laws

/-- The encoding of `i` matches the row of `i` in the opcode map. -/
def Encoding.Statement (i : Instr) : Prop :=
  ∀ strict, wellFormed strict i = true →
    ∃ r, (opcodeMap strict)[rowOf i]? = some r ∧ encode i &&& r.1 = r.2

theorem Encoding.cls (x : Nibble) : Encoding.Statement (.cls x) := by
  intro strict hw
  cases strict
  · exact ⟨_, rfl, by simp [encode, and_F0FF]⟩
  · have h0 : x = 0 := by simpa [wellFormed] using hw
    subst h0
    exact ⟨_, rfl, by simp [encode]⟩

theorem Encoding.ret (x : Nibble) : Encoding.Statement (.ret x) := by
  intro strict hw
  cases strict
  · exact ⟨_, rfl, by simp [encode, and_F0FF]⟩
  · have h0 : x = 0 := by simpa [wellFormed] using hw
    subst h0
    exact ⟨_, rfl, by simp [encode]⟩

theorem Encoding.jp (nnn : Addr) : Encoding.Statement (.jp nnn) :=
  fun strict _ => ⟨_, by cases strict <;> rfl, by simp [encode, and_F000]⟩

theorem Encoding.call (nnn : Addr) : Encoding.Statement (.call nnn) :=
  fun strict _ => ⟨_, by cases strict <;> rfl, by simp [encode, and_F000]⟩

theorem Encoding.seImm (x : Nibble) (kk : Byte) : Encoding.Statement (.seImm x kk) :=
  fun strict _ => ⟨_, by cases strict <;> rfl, by simp [encode, and_F000]⟩

theorem Encoding.sneImm (x : Nibble) (kk : Byte) : Encoding.Statement (.sneImm x kk) :=
  fun strict _ => ⟨_, by cases strict <;> rfl, by simp [encode, and_F000]⟩

theorem Encoding.seReg (x : Nibble) (y : Nibble) (n : Nibble) : Encoding.Statement (.seReg x y n) := by
  intro strict hw
  cases strict
  · exact ⟨_, rfl, by simp [encode, and_F000]⟩
  · have h0 : n = 0 := by simpa [wellFormed] using hw
    subst h0
    exact ⟨_, rfl, by simp [encode, and_F00F]⟩

theorem Encoding.ldImm (x : Nibble) (kk : Byte) : Encoding.Statement (.ldImm x kk) :=
  fun strict _ => ⟨_, by cases strict <;> rfl, by simp [encode, and_F000]⟩

theorem Encoding.addImm (x : Nibble) (kk : Byte) : Encoding.Statement (.addImm x kk) :=
  fun strict _ => ⟨_, by cases strict <;> rfl, by simp [encode, and_F000]⟩

theorem Encoding.ldReg (x : Nibble) (y : Nibble) : Encoding.Statement (.ldReg x y) :=
  fun strict _ => ⟨_, by cases strict <;> rfl, by simp [encode, and_F00F]⟩

theorem Encoding.orReg (x : Nibble) (y : Nibble) : Encoding.Statement (.orReg x y) :=
  fun strict _ => ⟨_, by cases strict <;> rfl, by simp [encode, and_F00F]⟩

theorem Encoding.andReg (x : Nibble) (y : Nibble) : Encoding.Statement (.andReg x y) :=
  fun strict _ => ⟨_, by cases strict <;> rfl, by simp [encode, and_F00F]⟩

theorem Encoding.xorReg (x : Nibble) (y : Nibble) : Encoding.Statement (.xorReg x y) :=
  fun strict _ => ⟨_, by cases strict <;> rfl, by simp [encode, and_F00F]⟩

theorem Encoding.addReg (x : Nibble) (y : Nibble) : Encoding.Statement (.addReg x y) :=
  fun strict _ => ⟨_, by cases strict <;> rfl, by simp [encode, and_F00F]⟩

theorem Encoding.sub (x : Nibble) (y : Nibble) : Encoding.Statement (.sub x y) :=
  fun strict _ => ⟨_, by cases strict <;> rfl, by simp [encode, and_F00F]⟩

theorem Encoding.shr (x : Nibble) (y : Nibble) : Encoding.Statement (.shr x y) :=
  fun strict _ => ⟨_, by cases strict <;> rfl, by simp [encode, and_F00F]⟩

theorem Encoding.subn (x : Nibble) (y : Nibble) : Encoding.Statement (.subn x y) :=
  fun strict _ => ⟨_, by cases strict <;> rfl, by simp [encode, and_F00F]⟩

theorem Encoding.shl (x : Nibble) (y : Nibble) : Encoding.Statement (.shl x y) :=
  fun strict _ => ⟨_, by cases strict <;> rfl, by simp [encode, and_F00F]⟩

theorem Encoding.sneReg (x : Nibble) (y : Nibble) (n : Nibble) : Encoding.Statement (.sneReg x y n) := by
  intro strict hw
  cases strict
  · exact ⟨_, rfl, by simp [encode, and_F000]⟩
  · have h0 : n = 0 := by simpa [wellFormed] using hw
    subst h0
    exact ⟨_, rfl, by simp [encode, and_F00F]⟩

theorem Encoding.ldI (nnn : Addr) : Encoding.Statement (.ldI nnn) :=
  fun strict _ => ⟨_, by cases strict <;> rfl, by simp [encode, and_F000]⟩

theorem Encoding.jpV0 (nnn : Addr) : Encoding.Statement (.jpV0 nnn) :=
  fun strict _ => ⟨_, by cases strict <;> rfl, by simp [encode, and_F000]⟩

theorem Encoding.rnd (x : Nibble) (kk : Byte) : Encoding.Statement (.rnd x kk) :=
  fun strict _ => ⟨_, by cases strict <;> rfl, by simp [encode, and_F000]⟩

theorem Encoding.drw (x : Nibble) (y : Nibble) (n : Nibble) : Encoding.Statement (.drw x y n) :=
  fun strict _ => ⟨_, by cases strict <;> rfl, by simp [encode, and_F000]⟩

theorem Encoding.skp (x : Nibble) : Encoding.Statement (.skp x) :=
  fun strict _ => ⟨_, by cases strict <;> rfl, by simp [encode, and_F0FF]⟩

theorem Encoding.sknp (x : Nibble) : Encoding.Statement (.sknp x) :=
  fun strict _ => ⟨_, by cases strict <;> rfl, by simp [encode, and_F0FF]⟩

theorem Encoding.ldVxDt (x : Nibble) : Encoding.Statement (.ldVxDt x) :=
  fun strict _ => ⟨_, by cases strict <;> rfl, by simp [encode, and_F0FF]⟩

theorem Encoding.ldVxK (x : Nibble) : Encoding.Statement (.ldVxK x) :=
  fun strict _ => ⟨_, by cases strict <;> rfl, by simp [encode, and_F0FF]⟩

theorem Encoding.ldDtVx (x : Nibble) : Encoding.Statement (.ldDtVx x) :=
  fun strict _ => ⟨_, by cases strict <;> rfl, by simp [encode, and_F0FF]⟩

theorem Encoding.ldStVx (x : Nibble) : Encoding.Statement (.ldStVx x) :=
  fun strict _ => ⟨_, by cases strict <;> rfl, by simp [encode, and_F0FF]⟩

theorem Encoding.addI (x : Nibble) : Encoding.Statement (.addI x) :=
  fun strict _ => ⟨_, by cases strict <;> rfl, by simp [encode, and_F0FF]⟩

theorem Encoding.ldF (x : Nibble) : Encoding.Statement (.ldF x) :=
  fun strict _ => ⟨_, by cases strict <;> rfl, by simp [encode, and_F0FF]⟩

theorem Encoding.ldB (x : Nibble) : Encoding.Statement (.ldB x) :=
  fun strict _ => ⟨_, by cases strict <;> rfl, by simp [encode, and_F0FF]⟩

theorem Encoding.storeRegs (x : Nibble) : Encoding.Statement (.storeRegs x) :=
  fun strict _ => ⟨_, by cases strict <;> rfl, by simp [encode, and_F0FF]⟩

theorem Encoding.loadRegs (x : Nibble) : Encoding.Statement (.loadRegs x) :=
  fun strict _ => ⟨_, by cases strict <;> rfl, by simp [encode, and_F0FF]⟩

end Sys2Proof.Laws
end

