-- ==== Sys2Proof/Laws/Sprite.lean ====
section
/-! SUPPORT. The sprite that a statement speaks of (`State.spriteCovers`), and the cells that the compositer plots, are the
same (R131, R132, R134). -/

namespace Sys2Proof.Machine

/-- A set bit of the sprite lands on column X and row Y exactly when the compositer plots that cell. -/
theorem State.spriteCovers_iff (s : State) (x y n : Nibble) {X Y : Nat} (hX : X < 64) (hY : Y < 32) :
    s.spriteCovers x y n X Y ↔
      Y * 64 + X ∈ spriteCells (s.getV x).toNat (s.getV y).toNat (s.readRun s.i.toNat n.toNat) := by
  rw [mem_spriteCells]
  constructor
  · rintro ⟨r, hr, c, hc, hb, hx, hy⟩
    refine ⟨r, by simpa using hr, c, hc, by rwa [State.readRun_getElem], ?_⟩
    simp only [wrapCell, fbHeight, fbWidth]; omega
  · rintro ⟨r, hr, c, hc, hb, he⟩
    rw [State.readRun_getElem] at hb
    simp only [wrapCell, fbHeight, fbWidth] at he
    exact ⟨r, by simpa using hr, c, hc, hb, by omega, by have := hY; omega⟩

/-- The sprite of a draw has at most 15 rows, so no cell is plotted twice. -/
theorem State.readRun_sprite_length (s : State) (n : Nibble) : (s.readRun s.i.toNat n.toNat).length ≤ 32 := by
  have := n.isLt
  simp; omega

end Sys2Proof.Machine
end

