-- ==== Sys2Proof/Laws/Step.lean ====
section
/-! SUPPORT. Everything one step can do, said once: the execute stage, the cycle, the host's actions. Invariants are
proved from these cases and do not unfold the step. -/

namespace Sys2Proof.Machine

/-- What no instruction writes: the host's inputs and outputs of calls, the counters, the key sample, the parameters
(R23, R36, R39, R40, R41, R43). -/
structure State.ExecKeeps (s t : State) : Prop where
  keys : t.keys = s.keys
  keyPrev : t.keyPrev = s.keyPrev
  cycleCount : t.cycleCount = s.cycleCount
  tickCount : t.tickCount = s.tickCount
  lastLoad : t.lastLoad = s.lastLoad
  params : t.params = s.params
  script : t.script = s.script

theorem State.ExecKeeps.takeFault (s : State) (c : FaultCause) (op : Word) (n : Nat) :
    s.ExecKeeps (s.takeFault c op n) := by constructor <;> simp

theorem State.ExecKeeps.setRegsFrom (s : State) (k : Nat) (bs : List Byte) :
    s.ExecKeeps (s.setRegsFrom k bs).advance := by
  rw [State.setRegsFrom_eq]; constructor <;> rfl

theorem State.ExecKeeps.withRange {s d t : State} {i : Instr} {n : Nat} (hd : s.ExecKeeps d)
    (h : s.withRange i n d = .next t) : s.ExecKeeps t := by
  obtain ⟨_, e⟩ | ⟨k, _, e⟩ := s.withRange_cases i n d
  · rw [e] at h; cases h; exact hd
  · rw [e] at h; cases h; exact .takeFault ..

theorem State.ExecKeeps.skipOnKey {s t : State} {i : Instr} {x : Nibble} {w : Bool} (h : s.skipOnKey i x w = .next t) :
    s.ExecKeeps t := by
  obtain ⟨k, _, e⟩ | ⟨_, _, e⟩ := s.skipOnKey_cases i x w
  · rw [e] at h; cases h; constructor <;> simp
  · rw [e] at h; cases h; exact .takeFault ..

theorem State.ExecKeeps.flagThenValue {s t : State} {x : Nibble} {u : RefuseList → Bool} {f : State → Bool} {r : State → Byte}
    (h : s.flagThenValue x u f r = .next t) : s.ExecKeeps t := by
  obtain ⟨b, e⟩ | ⟨_, _, _, e⟩ := s.flagThenValue_cases x u f r
  · rw [e] at h; cases h; constructor <;> rfl
  · rw [e] at h; cases h

/-- No instruction writes what `ExecKeeps` lists. -/
theorem exec_keeps {i : Instr} {s t : State} (h : exec i s = .next t) : s.ExecKeeps t := by
  cases i <;> simp only [exec] at h
  case ret x =>
    unfold execRet at h; split at h <;> cases h
    · exact .takeFault ..
    · constructor <;> rfl
  case call nnn =>
    unfold execCall at h; split at h <;> cases h
    · exact .takeFault ..
    · constructor <;> simp
  case ldVxK x =>
    unfold execLdVxK at h; split at h <;> cases h <;> constructor <;> rfl
  case loadRegs x => exact .withRange (.setRegsFrom ..) h
  case storeRegs x => exact .withRange (by constructor <;> rfl) h
  case ldB x => exact .withRange (by constructor <;> rfl) h
  case drw x y n => exact .withRange (by constructor <;> rfl) h
  case skp x => exact .skipOnKey h
  case sknp x => exact .skipOnKey h
  case addReg x y => exact .flagThenValue h
  case sub x y => exact .flagThenValue h
  case shr x y => exact .flagThenValue h
  case subn x y => exact .flagThenValue h
  case shl x y => exact .flagThenValue h
  all_goals
    cases h
    constructor <;> first | rfl | simp

/-! The cycle -/

/-- Everything the fetch, decode and execute of a cycle can do (R100, R101, R103, R286). -/
theorem State.execFetched_cases (s : State) :
    (∃ a, s.fetch = .outOfRange a ∧ s.execFetched = .next (s.takeFault .addressOutOfRange 0 a)) ∨
    (∃ op w, s.fetch = .opcode op ∧ decodeOp s.params.decodeStrict op = .invalid w ∧
      s.execFetched = .next (s.takeFault .invalidInstruction w 0)) ∨
    (∃ op i, s.fetch = .opcode op ∧ decodeOp s.params.decodeStrict op = .instr i ∧ s.execFetched = exec i s) := by
  unfold State.execFetched
  cases hf : s.fetch with
  | outOfRange a => exact .inl ⟨a, rfl, rfl⟩
  | opcode op =>
    cases hd : decodeOp s.params.decodeStrict op with
    | invalid w => exact .inr (.inl ⟨op, w, rfl, hd, by simp only [hd]⟩)
    | instr i => exact .inr (.inr ⟨op, i, rfl, hd, by simp only [hd]⟩)

/-- A fetch, decode and execute writes nothing that no instruction writes. -/
theorem State.execFetched_keeps {s t : State} (h : s.execFetched = .next t) : s.ExecKeeps t := by
  obtain ⟨a, _, e⟩ | ⟨op, w, _, _, e⟩ | ⟨op, i, _, _, e⟩ := s.execFetched_cases
  · rw [e] at h; cases h; exact .takeFault ..
  · rw [e] at h; cases h; exact .takeFault ..
  · rw [e] at h; exact exec_keeps h

/-- Everything a cycle that answers a next state can have done (R310, R311). -/
theorem State.cycle_cases {s t : State} {b : Bool} (h : s.cycle b = .next t) :
    (s.runState = .halted ∧ t = { s with lastResult := .halted }) ∨
    (s.runState = .running ∧ ∃ u, s.startCycle.execFetched = .next u ∧ t = u.cycleTail b) := by
  unfold State.cycle at h
  cases hr : s.runState with
  | halted => rw [hr] at h; cases h; exact .inl ⟨rfl, rfl⟩
  | running =>
    rw [hr] at h
    cases hx : s.startCycle.execFetched with
    | next u => rw [hx] at h; cases h; exact .inr ⟨rfl, u, rfl, rfl⟩
    | fault r => rw [hx] at h; cases h
    | refused r => rw [hx] at h; cases h

/-- Everything a step that answers a next state can have done: one action of the host (R320), on the state with that
action taken off the script. -/
theorem step_cases {s t : State} (h : step s = .next t) :
    (∃ b, s.nextAction = .cycle b ∧ s.popScript.cycle b = .next t) ∨
    (∃ k, s.nextAction = .setKeys k ∧ t = s.popScript.setKeys k) ∨
    (s.nextAction = .clearRedraw ∧ t = s.popScript.clearRedraw) ∨
    (s.nextAction = .quit ∧ t = s.popScript.quit) ∨
    (s.nextAction = .reset ∧ t = s.popScript.doReset) ∨
    (∃ bytes, s.nextAction = .loadProgram bytes ∧ t = s.popScript.loadProgram bytes) := by
  unfold step State.hostStep State.perform at h
  cases ha : s.nextAction with
  | cycle b => rw [ha] at h; exact .inl ⟨b, rfl, h⟩
  | setKeys k => rw [ha] at h; cases h; exact .inr (.inl ⟨k, rfl, rfl⟩)
  | clearRedraw => rw [ha] at h; cases h; exact .inr (.inr (.inl ⟨rfl, rfl⟩))
  | quit => rw [ha] at h; cases h; exact .inr (.inr (.inr (.inl ⟨rfl, rfl⟩)))
  | reset => rw [ha] at h; cases h; exact .inr (.inr (.inr (.inr (.inl ⟨rfl, rfl⟩))))
  | loadProgram bytes => rw [ha] at h; cases h; exact .inr (.inr (.inr (.inr (.inr ⟨bytes, rfl, rfl⟩))))

/-- A rejected load returns its result and changes nothing else (R343). -/
theorem State.loadProgram_rejected (s : State) (bytes : List Byte) (h : progMax < bytes.length) :
    s.loadProgram bytes = { s with lastLoad := .loadRejected } := if_pos h

/-- An accepted load writes the image and resets (R342). -/
theorem State.loadProgram_ok (s : State) (bytes : List Byte) (h : bytes.length ≤ progMax) :
    s.loadProgram bytes = { (s.writeMem progBase bytes).doReset with lastLoad := .loadOk } :=
  if_neg (Nat.not_lt.mpr h)

/-! What a cycle leaves when it raises a fault (R285) -/

/-- A Cycle of a running core is the execute stage and then the tail (R311). -/
theorem step_running {s : State} {b : Bool} (hr : s.runState = .running) (ha : s.nextAction = .cycle b) :
    step s = thenTail b s.popScript.startCycle.execFetched := by
  simp [step, State.hostStep, ha, State.perform, State.cycle, hr]

/-- Under ON_FAULT = halt the tail after a fault is not performed. -/
theorem State.cycleTail_takeFault_halt {s : State} (hh : s.params.onFault = .halt) (b : Bool) (c : FaultCause)
    (op : Word) (n : Nat) : (s.popScript.startCycle.takeFault c op n).cycleTail b = s.haltedBy c op n := by
  rw [State.cycleTail_halted _ _ (by simp [State.takeFault_runState, hh])]
  simp [State.takeFault, hh, State.recordFault, State.startCycle, State.popScript, State.haltedBy]

/-- Under ON_FAULT = skip it is. -/
theorem State.skippedTo_takeFault {s : State} (hr : s.runState = .running) (hs : s.params.onFault = .skip) (b : Bool)
    (c : FaultCause) (op : Word) (n : Nat) :
    s.SkippedTo ((s.popScript.startCycle.takeFault c op n).cycleTail b) b c op n := by
  rw [State.cycleTail_running _ _ (by simp [State.takeFault_runState, hs, hr])]
  cases b <;>
    simp [State.SkippedTo, State.takeFault, hs, State.recordFault, State.startCycle, State.popScript, State.endCycle,
      State.tick, State.advance, State.setPc, State.pcNext, countDown_toNat]

end Sys2Proof.Machine
end

