-- ==== Sys2Proof/Tests/Slice0.lean ====
section
/-! SUPPORT. Tests. Expected results come from spec/95_test_vectors.md (rows X, D, C, A, M, K, Y, named in the comments) or
by hand from the rules; decode tests are words written out from spec/30_encoding.md R96. Then one witness for each
statement that has hypotheses, named after it. -/

namespace Sys2Proof.Tests
open Sys2Proof Sys2Proof.Machine

/-! ## Helpers -/

/-- The state a step answers; the reset state where it answers none. -/
def after : Host.Outcome State Fault Refusal → State
  | .next t => t
  | .fault _ => State.reset
  | .refused _ => State.reset

/-- One Cycle(tick_due) with the opcode at PC. -/
def cyc (s : State) (op : Nat) (tickDue : Bool := false) : State :=
  after (step { s.withFetchWord 16 op with script := [.cycle tickDue] })

/-- The reset state with these registers. -/
def regs (l : List (Nibble × Byte)) : State := l.foldl (fun s p => s.setV p.1 p.2) State.reset

/-- PC and the registers named. -/
def view (t : State) (xs : List Nibble) : Word × List Byte := (t.pc, xs.map t.getV)

/-- The fault record's code, pc, opcode and address, and whether the core is halted. -/
def record (t : State) : BitVec 3 × Word × Word × BitVec 17 × Bool :=
  (t.faultCause.code, t.faultPc, t.faultOpcode, t.faultAddr, t.runState == .halted)

/-- The reset state under ADDR_POLICY = fault. -/
def strictAddr : State := { State.reset with params := { defaultParams with addrPolicy := .fault } }

/-- The reset state under ON_FAULT = skip. -/
def skipping : State := { State.reset with params := { defaultParams with onFault := .skip } }

/-- The reset state under a value of VF_OPERAND. -/
def vfMode (m : VfOperand) : State := { State.reset with params := { defaultParams with vfOperand := m } }

/-- The reset state under the loose decode. -/
def loose : State := { State.reset with params := { defaultParams with decodeStrict := false } }

/-- The row Y of the framebuffer. -/
def fbRow (t : State) (y : Nat) : BitVec 64 := (t.fb[y]?).getD 0

/-! ## Well-formedness: an ill-formed term for each check -/

theorem test_wf_cls : wellFormed true (.cls 1) = false ∧ wellFormed true (.cls 0) = true := by decide
theorem test_wf_ret : wellFormed true (.ret 0xF) = false ∧ wellFormed true (.ret 0) = true := by decide
theorem test_wf_seReg : wellFormed true (.seReg 1 2 1) = false ∧ wellFormed false (.seReg 1 2 1) = true := by decide
theorem test_wf_sneReg : wellFormed true (.sneReg 1 2 8) = false ∧ wellFormed false (.sneReg 1 2 8) = true := by decide

/-! ## Decoding: a word per constructor, written out from its row of R96 (mask, match and fields) -/

theorem test_decode_display :
    decodeTableWord 16 0b0000000011100000 = some (.cls 0) ∧
    decodeTableWord 16 0b1101101000110111 = some (.drw 0xA 3 7) := by decide

theorem test_decode_control :
    decodeTableWord 16 0b0000000011101110 = some (.ret 0) ∧
    decodeTableWord 16 0b0001101000110111 = some (.jp 0xA37) ∧
    decodeTableWord 16 0b0010101000110111 = some (.call 0xA37) ∧
    decodeTableWord 16 0b0011101000110111 = some (.seImm 0xA 0x37) ∧
    decodeTableWord 16 0b0100101000110111 = some (.sneImm 0xA 0x37) ∧
    decodeTableWord 16 0b0101101000110000 = some (.seReg 0xA 3 0) ∧
    decodeTableWord 16 0b1001101000110000 = some (.sneReg 0xA 3 0) ∧
    decodeTableWord 16 0b1011101000110111 = some (.jpV0 0xA37) := by decide

theorem test_decode_alu :
    decodeTableWord 16 0b0110101000110111 = some (.ldImm 0xA 0x37) ∧
    decodeTableWord 16 0b0111101000110111 = some (.addImm 0xA 0x37) ∧
    decodeTableWord 16 0b1000101000110000 = some (.ldReg 0xA 3) ∧
    decodeTableWord 16 0b1000101000110001 = some (.orReg 0xA 3) ∧
    decodeTableWord 16 0b1000101000110010 = some (.andReg 0xA 3) ∧
    decodeTableWord 16 0b1000101000110011 = some (.xorReg 0xA 3) ∧
    decodeTableWord 16 0b1000101000110100 = some (.addReg 0xA 3) ∧
    decodeTableWord 16 0b1000101000110101 = some (.sub 0xA 3) ∧
    decodeTableWord 16 0b1000101000110110 = some (.shr 0xA 3) ∧
    decodeTableWord 16 0b1000101000110111 = some (.subn 0xA 3) ∧
    decodeTableWord 16 0b1000101000111110 = some (.shl 0xA 3) ∧
    decodeTableWord 16 0b1100101000110111 = some (.rnd 0xA 0x37) := by decide

theorem test_decode_memory :
    decodeTableWord 16 0b1010101000110111 = some (.ldI 0xA37) ∧
    decodeTableWord 16 0b1111101000011110 = some (.addI 0xA) ∧
    decodeTableWord 16 0b1111101000101001 = some (.ldF 0xA) ∧
    decodeTableWord 16 0b1111101000110011 = some (.ldB 0xA) ∧
    decodeTableWord 16 0b1111101001010101 = some (.storeRegs 0xA) ∧
    decodeTableWord 16 0b1111101001100101 = some (.loadRegs 0xA) := by decide

theorem test_decode_keys_timers :
    decodeTableWord 16 0b1110101010011110 = some (.skp 0xA) ∧
    decodeTableWord 16 0b1110101010100001 = some (.sknp 0xA) ∧
    decodeTableWord 16 0b1111101000000111 = some (.ldVxDt 0xA) ∧
    decodeTableWord 16 0b1111101000001010 = some (.ldVxK 0xA) ∧
    decodeTableWord 16 0b1111101000010101 = some (.ldDtVx 0xA) ∧
    decodeTableWord 16 0b1111101000011000 = some (.ldStVx 0xA) := by decide

/-- X1, X2, X3, X7, X8: invalid under both values of DECODE_STRICT. -/
theorem test_decode_invalid : [0x0000#16, 0x0123#16, 0x00E1#16, 0x8008#16, 0x800F#16, 0x8AB8#16, 0xE09F#16, 0xF001#16,
    0xF0FF#16, 0xFFFF#16].all (fun op => decodeOp true op == .invalid op && decodeOp false op == .invalid op) = true := by
  decide

/-- X4, X5, X6: invalid under the strict decode only. -/
theorem test_decode_strict :
    decodeOp true 0x01E0 = .invalid 0x01E0 ∧ decodeOp false 0x01E0 = .instr (.cls 1) ∧
    decodeOp true 0x01EE = .invalid 0x01EE ∧ decodeOp false 0x01EE = .instr (.ret 1) ∧
    decodeOp true 0x5121 = .invalid 0x5121 ∧ decodeOp false 0x5121 = .instr (.seReg 1 2 1) ∧
    decodeOp true 0x9121 = .invalid 0x9121 ∧ decodeOp false 0x9121 = .instr (.sneReg 1 2 1) := by decide

/-- R90, R67: an instruction is two bytes, the high one first; one byte is not enough. -/
theorem test_decode_bytes :
    decodeBytes true [0x23, 0x00, 0x77] = .instr (.call 0x300) [0x77] ∧ decodeBytes true [0x23] = .truncated ∧
    decodeBytes true [] = .truncated := by decide

/-- R110, from the listings of spec/95_test_vectors.md P2 and P3. -/
theorem test_listing :
    listing (.ldImm 0 0x0A) = "LD V0, 0A" ∧ listing (.drw 0 1 5) = "DRW V0, V1, 5" ∧ listing (.ldI 0x300) = "LD I, 300" ∧
    listing (.loadRegs 2) = "LD V2, [I]" := by decide

/-! ## Display -/

/-- D1: cells 0, 100 and 2047 set. -/
theorem test_cls : let s := { State.reset with
      fb := ((State.reset.fb.set 0 1).set 1 (BitVec.twoPow 64 36)).set 31 (BitVec.twoPow 64 63) }
    let t := cyc s 0x00E0
    (t.fb, t.redraw, t.pc) = (Vector.replicate 32 0, true, 0x202) := by decide

/-- D2: glyph 0 at (0, 0): columns 0 to 3 of rows 0 and 4, columns 0 and 3 of rows 1 to 3. -/
theorem test_drw_glyph : let t := cyc State.reset 0xD015
    (t.fb.toList.take 6, t.redraw, view t [0xF]) = ([0xF, 0x9, 0x9, 0x9, 0xF, 0], true, (0x202, [0])) := by decide

/-- D7: x = F: the column is VF as it was, 2, and cell 2 goes from 1 to 0. -/
theorem test_drw_collision : let s := (({ regs [(0xF, 2)] with fb := State.reset.fb.set 0 4 }).setI 0x300).writeMem 0x300 [0x80]
    let t := cyc s 0xDF01
    (fbRow t 0, view t [0xF]) = (0, (0x202, [1])) := by decide

/-! ## Control flow -/

/-- C4. -/
theorem test_ret : let s := { State.reset with sp := 1, stack := State.reset.stack.set 0 0x202, pc := 0x300 }
    let t := cyc s 0x00EE
    (t.sp.val, t.pc) = (0, 0x202) := by decide

/-- C5. -/
theorem test_ret_underflow : record (cyc State.reset 0x00EE) = (3, 0x200, 0x00EE, 0, true) := by decide

/-- C1. -/
theorem test_jp : (cyc State.reset 0x1234).pc = 0x234 := by decide

/-- C15: the return address wraps to 0. -/
theorem test_call : let t := cyc { State.reset with pc := 0xFFFE } 0x2300
    (t.stackAt 0, t.sp.val, t.pc) = (0, 1, 0x300) := by decide

/-- C3. -/
theorem test_call_overflow : let t := cyc { State.reset with sp := 32 } 0x2300
    (record t, t.sp.val, t.pc) = ((2, 0x200, 0x2300, 0, true), 32, 0x200) := by decide

/-- C6, and C14: a skip modulo 65536. -/
theorem test_seImm : (cyc (regs [(3, 0x42)]) 0x3342).pc = 0x204 ∧ (cyc (regs [(3, 0x41)]) 0x3342).pc = 0x202 ∧
    (cyc { State.reset with pc := 0xFFFC } 0x3000).pc = 0 := by decide

/-- C7. -/
theorem test_sneImm : (cyc (regs [(3, 0x41)]) 0x4342).pc = 0x204 ∧ (cyc (regs [(3, 0x42)]) 0x4342).pc = 0x202 := by
  decide

/-- C8. -/
theorem test_seReg : (cyc (regs [(1, 9), (2, 9)]) 0x5120).pc = 0x204 ∧
    (cyc (regs [(1, 9), (2, 8)]) 0x5120).pc = 0x202 := by decide

/-- C10. -/
theorem test_sneReg : (cyc (regs [(1, 9), (2, 8)]) 0x9120).pc = 0x204 ∧
    (cyc (regs [(1, 9), (2, 9)]) 0x9120).pc = 0x202 := by decide

/-- C12, C13: the sum is not reduced to 12 bits. -/
theorem test_jpV0 : (cyc (regs [(0, 0x10)]) 0xB300).pc = 0x310 ∧ (cyc (regs [(0, 0xFF)]) 0xBFFF).pc = 0x10FE := by
  decide

/-! ## Register load, arithmetic and logic -/

/-- A1. -/
theorem test_ldImm : view (cyc State.reset 0x600A) [0] = (0x202, [0x0A]) := by decide

/-- A2, A3. -/
theorem test_addImm : view (cyc (regs [(2, 0xFF), (0xF, 0x55)]) 0x7201) [2, 0xF] = (0x202, [0, 0x55]) ∧
    view (cyc (regs [(0xF, 0xFF)]) 0x7F01) [0xF] = (0x202, [0]) := by decide

/-- A4. -/
theorem test_ldReg : view (cyc (regs [(1, 0x5A)]) 0x8010) [0, 1] = (0x202, [0x5A, 0x5A]) := by decide

/-- A5. -/
theorem test_orReg : view (cyc (regs [(1, 0xF0), (2, 0x0F), (0xF, 0x77)]) 0x8121) [1, 2, 0xF] = (0x202, [0xFF, 0x0F, 0x77]) := by
  decide

/-- A5b. -/
theorem test_andReg : view (cyc (regs [(1, 0xF0), (2, 0x3C), (0xF, 0x77)]) 0x8122) [1, 2, 0xF] = (0x202, [0x30, 0x3C, 0x77]) := by
  decide

/-- A5b. -/
theorem test_xorReg : view (cyc (regs [(1, 0xF0), (2, 0x3C), (0xF, 0x77)]) 0x8123) [1, 2, 0xF] = (0x202, [0xCC, 0x3C, 0x77]) := by
  decide

/-- A6, A7. -/
theorem test_addReg : view (cyc (regs [(0, 0xFF), (1, 1)]) 0x8014) [0, 0xF] = (0x202, [0, 1]) ∧
    view (cyc (regs [(0, 0x80), (1, 0x7F)]) 0x8014) [0, 0xF] = (0x202, [0xFF, 0]) := by decide

/-- A8, A9: VF as an operand, latched and sequential, and the refusal. -/
theorem test_addReg_vf : view (cyc (regs [(0xF, 0x80), (1, 0x90)]) 0x8F14) [0xF] = (0x202, [0x10]) ∧
    view (cyc (((vfMode .sequential).setV 0xF 0x80).setV 1 0x90) 0x8F14) [0xF] = (0x202, [0x91]) ∧
    view (cyc (((vfMode .sequential).setV 0 0xF0).setV 0xF 0x20) 0x80F4) [0, 0xF] = (0x202, [0xF1, 1]) ∧
    exec (.addReg 0 0xF) (vfMode (.refuse .onlyY)) = .refused .vfOperand :=
  ⟨by decide, by decide, by decide, rfl⟩

/-- A11, A12, A13. -/
theorem test_sub : view (cyc (regs [(0, 5), (1, 7)]) 0x8015) [0, 0xF] = (0x202, [0xFE, 0]) ∧
    view (cyc (regs [(0, 7), (1, 5)]) 0x8015) [0, 0xF] = (0x202, [2, 1]) ∧
    view (cyc (regs [(0, 9), (1, 9)]) 0x8015) [0, 0xF] = (0x202, [0, 1]) := by decide

/-- A14, A15. -/
theorem test_sub_vf : view (cyc (regs [(0xF, 0x10), (1, 1)]) 0x8F15) [0xF] = (0x202, [0x0F]) ∧
    view (cyc (regs [(0xF, 0x42)]) 0x8FF5) [0xF] = (0x202, [0]) := by decide

/-- A16, A17, A18. -/
theorem test_shr : view (cyc (regs [(4, 5), (0xE, 0xFF)]) 0x84E6) [4, 0xF] = (0x202, [2, 1]) ∧
    view (cyc (regs [(4, 4)]) 0x8406) [4, 0xF] = (0x202, [2, 0]) ∧
    view (cyc (regs [(0xF, 3)]) 0x8F06) [0xF] = (0x202, [1]) := by decide

/-- A19, A20, A21. -/
theorem test_subn : view (cyc (regs [(0, 7), (1, 5)]) 0x8017) [0, 0xF] = (0x202, [0xFE, 0]) ∧
    view (cyc (regs [(0, 5), (1, 7)]) 0x8017) [0, 0xF] = (0x202, [2, 1]) ∧
    view (cyc (regs [(0xF, 3), (1, 5)]) 0x8F17) [0xF] = (0x202, [2]) := by decide

/-- A22, A23. -/
theorem test_shl : view (cyc (regs [(4, 0x81)]) 0x840E) [4, 0xF] = (0x202, [2, 1]) ∧
    view (cyc (regs [(4, 0x40)]) 0x840E) [4, 0xF] = (0x202, [0x80, 0]) ∧
    view (cyc (regs [(0xF, 0x81)]) 0x8F0E) [0xF] = (0x202, [2]) := by decide

/-- A24, for any draw: the drawn byte and the mask; PC and the draw counter advance. -/
theorem test_rnd : (cyc State.reset 0xC30F).getV 3 = Config.randomByte 0 &&& 0x0F ∧
    ((cyc State.reset 0xC30F).pc, (cyc State.reset 0xC30F).draws) = (0x202, 1) := ⟨rfl, by decide⟩

/-! ## Index register and memory -/

/-- M1. -/
theorem test_ldI : (cyc State.reset 0xA2F0).i = 0x2F0 := by decide

/-- M2, M3. -/
theorem test_addI : (cyc ((regs [(1, 2)]).setI 0x0FFF) 0xF11E).i = 0x1001 ∧
    (cyc ((regs [(1, 1)]).setI 0xFFFF) 0xF11E).i = 0 := by decide

/-- M4. -/
theorem test_ldF : (cyc (regs [(2, 0x1A)]) 0xF229).i = 0x032 ∧ (cyc (regs [(2, 0x0F)]) 0xF229).i = 0x04B := by decide

/-- M5: 123. -/
theorem test_ldB : let t := cyc ((regs [(5, 123)]).setI 0x300) 0xF533
    (t.mem, t.i, t.pc) = ([(0x200, 0xF5), (0x201, 0x33), (0x300, 1), (0x301, 2), (0x302, 3)], 0x300, 0x202) := by decide

/-- M6, M7: across the top of memory, font bytes overwritten; under ADDR_POLICY = fault, no byte written. -/
theorem test_ldB_wraps :
    (cyc ((regs [(0, 123)]).setI 0xFFF) 0xF033).mem = [(0, 2), (1, 3), (0x200, 0xF0), (0x201, 0x33), (0xFFF, 1)] ∧
    (let t := cyc ((strictAddr.setV 0 123).setI 0xFFF) 0xF033
     (record t, t.mem) = ((4, 0x200, 0xF033, 0x1000, true), [(0x200, 0xF0), (0x201, 0x33)])) := by decide

/-- M8. -/
theorem test_storeRegs : let t := cyc ((regs [(0, 1), (1, 2), (2, 3), (3, 4)]).setI 0x300) 0xF255
    (t.mem, t.i) = ([(0x200, 0xF2), (0x201, 0x55), (0x300, 1), (0x301, 2), (0x302, 3)], 0x300) := by decide

/-- M10. -/
theorem test_loadRegs :
    let t := cyc (((regs [(3, 0x77)]).setI 0x300).writeMem 0x300 [0xAA, 0xBB, 0xCC, 0xDD]) 0xF265
    (view t [0, 1, 2, 3], t.i) = ((0x202, [0xAA, 0xBB, 0xCC, 0x77]), 0x300) := by decide

/-- M13: the smallest offending offset, and no register written. -/
theorem test_loadRegs_fault : let t := cyc ((strictAddr.setV 0 9).setI 0xFFE) 0xF265
    (record t, view t [0]) = ((4, 0x200, 0xF265, 0x1000, true), (0x200, [9])) := by decide

/-! ## Keys and timers -/

/-- K1, K3. -/
theorem test_skp : (cyc { regs [(1, 5)] with keys := 0x0020 } 0xE19E).pc = 0x204 ∧
    (cyc (regs [(1, 5)]) 0xE19E).pc = 0x202 ∧
    record (cyc (regs [(1, 0x10)]) 0xE19E) = (4, 0x200, 0xE19E, 0x10, true) := by decide

/-- K2. -/
theorem test_sknp : (cyc { regs [(1, 5)] with keys := 0x0020 } 0xE1A1).pc = 0x202 ∧
    (cyc (regs [(1, 5)]) 0xE1A1).pc = 0x204 := by decide

/-- K6, K5: the lowest key; a key already held does not end the wait under `edge`. -/
theorem test_ldVxK : view (cyc { State.reset with keys := 0x0204 } 0xF30A) [3] = (0x202, [2]) ∧
    view (cyc { State.reset with keys := 0x0080, keyPrev := 0x0080 } 0xF30A) [3] = (0x200, [0]) := by decide

/-- K7: a waiting cycle is a cycle. -/
theorem test_ldVxK_waits : let t := cyc { State.reset with dt := 3 } 0xF30A true
    (t.pc, t.dt, t.cycleCount, t.tickCount) = (0x200, 2, 1, 1) := by decide

/-- K8. -/
theorem test_ldVxDt : view (cyc { State.reset with dt := 0x3C } 0xF207) [2] = (0x202, [0x3C]) := by decide

/-- K9. -/
theorem test_ldDtVx : let t := cyc (regs [(0, 5)]) 0xF015 true
    (t.dt, t.tickCount) = (4, 1) := by decide

/-- K10. -/
theorem test_ldStVx : (cyc (regs [(1, 0x10)]) 0xF118).st = 0x10 := by decide

/-! ## The cycle, faults and host actions -/

/-- X10: the fetch wraps at the top of memory. -/
theorem test_fetch_wraps : let s := { State.reset.writeMem 0xFFF [0x6A, 0x12] with pc := 0xFFF, script := [.cycle false] }
    view (after (step s)) [0xA] = (0x1001, [0x12]) := by decide

/-- X11, X12. -/
theorem test_fetch_faults :
    record (after (step { strictAddr with pc := 0xFFF, script := [.cycle false] })) = (4, 0xFFF, 0, 0x1000, true) ∧
    record (after (step { strictAddr with pc := 0x1000, script := [.cycle false] })) = (4, 0x1000, 0, 0x1000, true) := by
  decide

/-- R285 (halt): after an instruction's own fault, no tick, no key sample and no count. -/
theorem test_own_fault_halts : let t := cyc { State.reset with dt := 5, keys := 3 } 0x00EE true
    (t.dt, t.keyPrev, t.tickCount, t.cycleCount) = (5, 0, 0, 0) := by decide

/-- Y3: the rest of the cycle is not performed. -/
theorem test_fault_halts : let t := cyc State.reset 0x0000 true
    (record t, t.lastResult, t.tickCount, t.cycleCount) =
      ((1, 0x200, 0, 0, true), .fault .invalidInstruction, 0, 0) := by decide

/-- Y2, its first cycle. -/
theorem test_fault_skips : let t := cyc skipping 0x0000 true
    (record t, t.pc, t.tickCount, t.cycleCount) = ((1, 0x200, 0, 0, false), 0x202, 1, 1) := by decide

/-- Y1. -/
theorem test_halted : let t := after (step { State.reset with runState := .halted, dt := 9, script := [.cycle true] })
    (t.lastResult, t.dt, t.cycleCount, t.tickCount, t.pc) = (.halted, 9, 0, 0, 0x200) := by decide

/-- Y4: Reset after a fault; the program stays. -/
theorem test_reset : let t := after (step { cyc State.reset 0x0000 with script := [.reset] })
    (record t, t.pc, t.mem) = ((0, 0, 0, 0, false), 0x200, [(0x200, 0), (0x201, 0)]) := by decide

/-- Y5. -/
theorem test_quit : record (after (step { State.reset with script := [.quit] })) = (0, 0, 0, 0, true) := by decide

/-- Y6. -/
theorem test_clearRedraw : (after (step { State.reset with redraw := true, script := [.clearRedraw] })).redraw = false := by
  decide

/-- R321. -/
theorem test_setKeys : (after (step { State.reset with script := [.setKeys 0x8001] })).keys = 0x8001 := by decide

/-- Y8. -/
theorem test_loadProgram :
    let t := after (step { State.reset.writeMem 0x202 [0x99] with script := [.loadProgram [0x12, 0x00]] })
    (t.mem, t.lastLoad) = ([(0x200, 0x12), (0x201, 0x00), (0x202, 0x99)], .loadOk) := by decide

/-- R66, R60: writing what the font puts at an address lists nothing there; another byte is listed. -/
theorem test_memory_canonical :
    (State.reset.writeMem 0 [0xF0, 0x91]).mem = [(1, 0x91)] ∧
    ((State.reset.writeMem 0 [0xF0, 0x91]).writeMem 1 [0x90]).mem = [] := by decide

/-- R324: the outputs, DT not among them. -/
theorem test_hostView : (cyc State.reset 0x00EE).hostView.faultCode = 3 ∧
    { State.reset with dt := 7 }.hostView = State.reset.hostView := ⟨by decide, rfl⟩

/-! ## A witness for each statement that has hypotheses, one conjunct per clause -/

theorem witness_DecodeOfEncode : wellFormed true (.drw 0xF 0xF 0xF) = true ∧ wellFormed false (.cls 0xF) = true := by
  decide

theorem witness_EncodeOfDecode :
    decodeOp true 0xD015 = .instr (.drw 0 1 5) ∧ decodeOp false 0x01EE = .instr (.ret 1) ∧
    decodeOp true 0x01EE = .invalid 0x01EE := by decide

theorem witness_OpcodeMapDecides :
    ((opcodeMap true)[22]? = some (0xF000, 0xD000) ∧ 0xD015#16 &&& 0xF000#16 = 0xD000#16) ∧
    (∀ r ∈ opcodeMap true, 0x0123#16 &&& r.1 ≠ r.2) ∧ ∀ r ∈ opcodeMap false, 0x8008#16 &&& r.1 ≠ r.2 :=
  ⟨⟨rfl, by decide⟩, by simp [opcodeMap], by simp [opcodeMap]⟩

theorem witness_InvalidOpcodesByFamily :
    decodeOp true 0x0FE0 = .invalid 0x0FE0 ∧ decodeOp true 0x5AB1 = .invalid 0x5AB1 ∧
    decodeOp false 0x8ABF = .invalid 0x8ABF ∧ decodeOp true 0x9AB1 = .invalid 0x9AB1 ∧
    decodeOp false 0xE0A2 = .invalid 0xE0A2 ∧ decodeOp false 0xF066 = .invalid 0xF066 := by decide

theorem witness_FetchReadsBigEndian :
    (let s := { State.reset with pc := 0xFFFF }; s.params.addrPolicy = .wrap) ∧
    (let s := { strictAddr with pc := 0xFFE }; s.params.addrPolicy = .fault ∧ s.pc.toNat < 0xFFF) ∧
    (let s := { strictAddr with pc := 0xFFF }; s.params.addrPolicy = .fault ∧ s.pc.toNat = 0xFFF) ∧
    (let s := { strictAddr with pc := 0x1000 }; s.params.addrPolicy = .fault ∧ 0x1000 ≤ s.pc.toNat) := by decide

theorem witness_FetchSeesEarlierWrites :
    State.reset.params.addrPolicy = .wrap ∧ { strictAddr with pc := 0xFFE }.pc.toNat < 0xFFF := by decide

/-- A running core whose next action is a Cycle, with `2300` (big-endian) at PC. -/
def callAtPc : State := { State.reset.writeMem 0x200 [0x23, 0x00] with script := [.cycle true] }

theorem witness_StepRunsDecodedInstruction :
    callAtPc.runState = .running ∧ callAtPc.nextAction = .cycle true ∧ callAtPc.params.addrPolicy = .wrap ∧
    decodeBytes callAtPc.params.decodeStrict
      [callAtPc.memByte (callAtPc.pc.toNat % 4096), callAtPc.memByte ((callAtPc.pc.toNat + 1) % 4096)] =
      .instr (.call 0x300) [] := by decide

theorem witness_CycleTailTicksAndCounts : { State.reset with dt := 0, st := 0xFF }.runState = .running ∧
    (cyc State.reset 0x00EE).runState = .halted := by decide

theorem witness_HaltedCycleChangesNothing :
    let s := { State.reset with runState := .halted, script := [.cycle true] }
    s.runState = .halted ∧ s.nextAction = .cycle true := by decide

/-- Running, PC past memory under ADDR_POLICY = fault, a Cycle to come. -/
def fetchFaults (p : OnFault) : State :=
  { State.reset with
    params := { defaultParams with addrPolicy := .fault, onFault := p }, pc := 0xFFFF, script := [.cycle true] }

/-- Running, an invalid opcode at PC, a Cycle to come. -/
def invalidAtPc (p : OnFault) : State :=
  { State.reset.writeMem 0x200 [0x00, 0x00] with
    params := { defaultParams with onFault := p }, script := [.cycle true] }

/-- Running, a RET at PC with an empty stack, a Cycle to come. -/
def underflowAtPc (p : OnFault) : State :=
  { State.reset.writeMem 0x200 [0x00, 0xEE] with
    params := { defaultParams with onFault := p }, script := [.cycle true], dt := 1 }

/-- What exec answers there: a fault of the instruction's own. -/
def underflowed (p : OnFault) : State := after (exec (.ret 0) { underflowAtPc p with script := [], lastResult := .ok })

theorem witness_HaltingFaultEndsCycle :
    (let s := fetchFaults .halt
     s.runState = .running ∧ s.nextAction = .cycle true ∧ s.params.onFault = .halt ∧ s.fetch = .outOfRange 0xFFFF) ∧
    (let s := invalidAtPc .halt
     s.runState = .running ∧ s.nextAction = .cycle true ∧ s.params.onFault = .halt ∧ s.fetch = .opcode 0 ∧
       decodeOp s.params.decodeStrict 0 = .invalid 0) ∧
    (let s := underflowAtPc .halt
     s.runState = .running ∧ s.nextAction = .cycle true ∧ s.params.onFault = .halt ∧ s.fetch = .opcode 0x00EE ∧
       decodeOp s.params.decodeStrict 0x00EE = .instr (.ret 0) ∧
       exec (.ret 0) { s with script := s.script.tail, lastResult := .ok } = .next (underflowed .halt) ∧
       (underflowed .halt).lastResult ≠ .ok) :=
  ⟨by decide, by decide, rfl, rfl, rfl, by decide, by decide, rfl, by decide⟩

theorem witness_SkippedFaultRunsTail :
    (let s := fetchFaults .skip
     s.runState = .running ∧ s.nextAction = .cycle true ∧ s.params.onFault = .skip ∧ s.fetch = .outOfRange 0xFFFF) ∧
    (let s := invalidAtPc .skip
     s.runState = .running ∧ s.nextAction = .cycle true ∧ s.params.onFault = .skip ∧ s.fetch = .opcode 0 ∧
       decodeOp s.params.decodeStrict 0 = .invalid 0) ∧
    (let s := underflowAtPc .skip
     s.runState = .running ∧ s.nextAction = .cycle true ∧ s.params.onFault = .skip ∧ s.fetch = .opcode 0x00EE ∧
       decodeOp s.params.decodeStrict 0x00EE = .instr (.ret 0) ∧
       exec (.ret 0) { s with script := s.script.tail, lastResult := .ok } = .next (underflowed .skip) ∧
       (underflowed .skip).lastResult ≠ .ok) :=
  ⟨by decide, by decide, rfl, rfl, rfl, by decide, by decide, rfl, by decide⟩

theorem witness_InstructionFaultsArePrecise :
    State.reset.lastResult = .ok ∧ (exec (.ret 0) State.reset) = .next (after (exec (.ret 0) State.reset)) ∧
    (after (exec (.ret 0) State.reset)).lastResult ≠ .ok := ⟨rfl, rfl, by decide⟩

theorem witness_DrwComposites :
    State.reset.rangeOk (0xF#4).toNat ∧ (strictAddr.setI 0xFFFF).rangeOk (0x0#4).toNat ∧
    (strictAddr.setI 0xFFB).rangeOk (0x5#4).toNat := by unfold State.rangeOk; decide

/-- The state after a first draw of glyph 0 at (0, 0). -/
def drawnOnce : State := after (exec (.drw 0 1 5) State.reset)

theorem witness_DrawTwiceRestores :
    State.reset.rangeOk (0x5#4).toNat ∧ drawnOnce.rangeOk (0x5#4).toNat ∧
    exec (.drw 0 1 5) State.reset = .next drawnOnce ∧ drawnOnce.getV 0 = State.reset.getV 0 ∧
    drawnOnce.getV 1 = State.reset.getV 1 ∧
    ∀ r < (0x5#4).toNat,
      drawnOnce.memByte (memIndex (drawnOnce.i.toNat + r)) = State.reset.memByte (memIndex (State.reset.i.toNat + r)) :=
  ⟨.inl rfl, .inl rfl, rfl, by decide, by decide, by decide⟩

theorem witness_BadAddressFaultsPrecisely :
    (strictAddr.setI 0xFFE).firstBad (0x3#4).toNat 2 ∧ (strictAddr.setI 0xFFF).firstBad 3 1 ∧
    (strictAddr.setI 0x1000).firstBad ((0x0#4).toNat + 1) 0 ∧ (strictAddr.setI 0xFF1).firstBad ((0xF#4).toNat + 1) 15 := by
  unfold State.firstBad; decide

theorem witness_OnlyDisplayInstructionsDraw :
    exec (.jp 0x234) State.reset = .next (State.reset.setPc 0x234) ∧
    (let s := { State.reset with redraw := true, runState := .halted, script := [.cycle true] }
     s.nextAction = .cycle true ∧ s.redraw = true ∧ step s = .next (after (step s))) := ⟨rfl, rfl, rfl, rfl⟩

theorem witness_RetPopsOrUnderflows :
    { State.reset with sp := 1 }.sp.val ≠ 0 ∧ { State.reset with sp := 32 }.sp.val ≠ 0 ∧ State.reset.sp.val = 0 := by decide

theorem witness_CallPushesOrOverflows :
    State.reset.sp.val ≠ 32 ∧ { State.reset with sp := 31 }.sp.val ≠ 32 ∧ { State.reset with sp := 32 }.sp.val = 32 := by
  decide

theorem witness_CallThenReturnLandsAfterCall :
    { State.reset with sp := 31 }.sp.val ≠ 32 ∧
    exec (.call 0x300) { State.reset with sp := 31 } = .next (after (exec (.call 0x300) { State.reset with sp := 31 })) :=
  ⟨by decide, rfl⟩

theorem witness_OnlyCallWritesStack :
    exec (.call 0x300) State.reset = .next (after (exec (.call 0x300) State.reset)) ∧
    exec (.jp 0x300) State.reset = .next (State.reset.setPc 0x300) := ⟨rfl, rfl⟩

theorem witness_AddRegistersCarry :
    State.reset.params.vfOperand = .latched ∧ (0x0#4 ≠ 0xF#4 ∧ 0xE#4 ≠ 0xF#4) := by decide

theorem witness_SubtractionsNotBorrow :
    State.reset.params.vfOperand = .latched ∧ (0x0#4 ≠ 0xF#4 ∧ 0xE#4 ≠ 0xF#4) := by decide

theorem witness_ShiftsPutBitOut : State.reset.params.vfOperand = .latched ∧ 0xE#4 ≠ 0xF#4 := by decide

theorem witness_SequentialReadsAfterFlag : (vfMode .sequential).params.vfOperand = .sequential := by decide

theorem witness_RefusePolicyRefusesVfOperands :
    ((vfMode (.refuse .anyOperand)).params.vfOperand = .refuse .anyOperand ∧
      exec (.shl 0xF 0) (vfMode (.refuse .anyOperand)) = .refused .vfOperand ∧
      exec (.sub 0xF 0) (vfMode (.refuse .anyOperand)) = .refused .vfOperand) ∧
    ((vfMode (.refuse .onlyY)).params.vfOperand = .refuse .onlyY ∧
      exec (.subn 0 0xF) (vfMode (.refuse .onlyY)) = .refused .vfOperand) := ⟨⟨rfl, rfl, rfl⟩, rfl, rfl⟩

/-- x = F: named by R191's list and not by D7's, under which it runs as A8 has it when latched. -/
theorem witness_UnlistedFormsRunAsWritten :
    (vfMode (.refuse .onlyY)).params.vfOperand = .refuse .onlyY ∧ 0xE#4 ≠ 0xF#4 ∧
    (RefuseList.onlyY = .anyOperand → 0xF#4 ≠ 0xF#4) ∧
    (vfMode (.refuse .anyOperand)).params.vfOperand = .refuse .anyOperand ∧
    view (cyc (((vfMode (.refuse .onlyY)).setV 0xF 0x80).setV 1 0x90) 0x8F14) [0xF] = (0x202, [0x10]) := by decide

theorem witness_FlagIsZeroOrOne :
    (0xE#4 ≠ 0xF#4 ∧ exec (.addReg 0xE 0xF) State.reset = .next (after (exec (.addReg 0xE 0xF) State.reset))) ∧
    (State.reset.rangeOk (0x5#4).toNat ∧ exec (.drw 0 1 5) State.reset = .next drawnOnce) :=
  ⟨⟨by decide, rfl⟩, .inl rfl, rfl⟩

theorem witness_OnlyListedInstructionsWriteRegisters :
    Instr.storeRegs 0xF ∈ [Instr.cls 0xF, .ret 0xF, .jp 0, .call 0, .seImm 0xF 0, .sneImm 0xF 0, .seReg 0xF 0 0, .sneReg 0xF 0 0,
      .ldI 0, .jpV0 0, .skp 0xF, .sknp 0xF, .ldDtVx 0xF, .ldStVx 0xF, .addI 0xF, .ldF 0xF, .ldB 0xF, .storeRegs 0xF] ∧
    exec (.storeRegs 0xF) State.reset = .next (after (exec (.storeRegs 0xF) State.reset)) := ⟨by simp, rfl⟩

theorem witness_BcdStoresDigits :
    (State.reset.setI 0xFFFF).rangeOk 3 ∧ (strictAddr.setI 0xFFD).rangeOk 3 := by unfold State.rangeOk; decide

theorem witness_StoreRegistersWritesBlock :
    (State.reset.setI 0xFFFF).rangeOk ((0xF#4).toNat + 1) ∧ (strictAddr.setI 0xFF0).rangeOk ((0xF#4).toNat + 1) := by
  unfold State.rangeOk; decide

theorem witness_LoadRegistersReadsBlock :
    (State.reset.setI 0xFFFF).rangeOk ((0xF#4).toNat + 1) ∧ (strictAddr.setI 0xFFF).rangeOk ((0x0#4).toNat + 1) := by
  unfold State.rangeOk; decide

/-- V0 and V1 stored at 0x300, and then overwritten with 0. -/
def storedTwo : State := after (exec (.storeRegs 1) ((regs [(0, 0x11), (1, 0x22)]).setI 0x300))

theorem witness_StoreThenLoadRestores :
    let s := (regs [(0, 0x11), (1, 0x22)]).setI 0x300
    let u := (storedTwo.setV 0 0).setV 1 0
    s.rangeOk ((0x1#4).toNat + 1) ∧ u.rangeOk ((0x1#4).toNat + 1) ∧ exec (.storeRegs 1) s = .next storedTwo ∧ u.i = s.i ∧
    ∀ k ≤ (0x1#4).toNat, u.memByte ((s.i.toNat + k) % 4096) = storedTwo.memByte ((s.i.toNat + k) % 4096) :=
  ⟨.inl rfl, .inl rfl, rfl, rfl, by decide⟩

theorem witness_OnlyStoresWriteMemory :
    (∀ x, Instr.loadRegs 0 ≠ .ldB x) ∧ (∀ x, Instr.loadRegs 0 ≠ .storeRegs x) ∧
    exec (.loadRegs 0) State.reset = .next (after (exec (.loadRegs 0) State.reset)) :=
  ⟨fun _ => Instr.noConfusion, fun _ => Instr.noConfusion, rfl⟩

theorem witness_KeySkipsFollowKey :
    ((regs [(1, 15)]).getV 1).toNat < 16 ∧
    { State.reset with params := { defaultParams with keyIndexPolicy := .mask } }.params.keyIndexPolicy = .mask ∧
    (16 ≤ ((regs [(1, 16)]).getV 1).toNat ∧ (regs [(1, 16)]).params.keyIndexPolicy = .fault) := by decide

theorem witness_KeyWaitTakesLowestKey :
    let s := { State.reset with keys := 0x0204, keyPrev := 0x0004 }
    let P := fun k : Nat => s.keys.getLsbD k = true ∧ (s.params.keyTrigger = .edge → s.keyPrev.getLsbD k = false)
    (P 9 ∧ ∀ j < 9, ¬P j) ∧ ∀ k < 16, ¬(State.reset.keys.getLsbD k = true) := by decide

theorem witness_IndexAndTimersHaveTheirWriters :
    exec (.jp 0x300) State.reset = .next (State.reset.setPc 0x300) := rfl

theorem witness_TimerMoves : (regs [(0, 0)]).runState = .running ∧ (regs [(0, 0xFF)]).runState = .running := by decide

theorem witness_TickFollowsTimerWrite : State.reset.runState = .running := by decide

theorem witness_HostActionsChangeOnlyTheirs :
    { State.reset with script := [.setKeys 0xFFFF] }.script = .setKeys 0xFFFF :: [] ∧
    { State.reset with script := [.quit] }.script = .quit :: [] ∧
    { State.reset with script := [.clearRedraw] }.script = .clearRedraw :: [] := by decide

theorem witness_ResetReinitializes :
    { State.reset with runState := .halted, script := [.reset] }.script = .reset :: [] := by decide

theorem witness_LoadProgramLoadsOrRejects :
    { State.reset with script := [.loadProgram (List.replicate 3584 0x12)] }.script =
      .loadProgram (List.replicate 3584 0x12) :: [] ∧
    (List.replicate 3584 (0x12 : Byte)).length ≤ 3584 ∧ 3584 < (List.replicate 3585 (0x12 : Byte)).length :=
  ⟨rfl, by rw [List.length_replicate], by rw [List.length_replicate]; decide⟩

theorem witness_OnlySetKeysChangesKeys :
    let s := { State.reset with keys := 5, script := [.quit] }
    (∀ k, s.nextAction ≠ .setKeys k) ∧ step s = .next (after (step s)) :=
  ⟨fun _ => HostAction.noConfusion, rfl⟩

theorem witness_OnlyResetOrLoadLeavesHalted :
    let s := { State.reset with runState := .halted, script := [.reset] }
    s.runState = .halted ∧ step s = .next (after (step s)) ∧ (after (step s)).runState = .running := ⟨rfl, rfl, rfl⟩

theorem witness_CountersNeverDecrease :
    step callAtPc = .next (after (step callAtPc)) ∧ callAtPc.nextAction = .cycle true ∧
    callAtPc.runState = .running ∧ (after (step callAtPc)).cycleCount = 1 ∧
    (∀ b, { State.reset with script := [.quit] }.nextAction ≠ .cycle b) :=
  ⟨rfl, rfl, rfl, by decide, by decide⟩

theorem witness_ParametersNeverChange : step callAtPc = .next (after (step callAtPc)) := rfl

/-- The same state serves the three invariants: each holds of it, and its step answers. -/
theorem witness_MemoryStaysCanonical :
    callAtPc.memCanonical ∧ callAtPc.ticksBounded ∧ step callAtPc = .next (after (step callAtPc)) :=
  ⟨by decide, by decide, rfl⟩

theorem witness_TicksStayBounded : let s := { callAtPc with tickCount := 7, cycleCount := 7 }
    s.ticksBounded ∧ step s = .next (after (step s)) := ⟨Nat.le_refl _, rfl⟩

theorem witness_FaultRecordStaysLegal : let s := invalidAtPc .halt
    s.RecordLegal ∧ step s = .next (after (step s)) ∧ (after (step s)).faultCause = .invalidInstruction :=
  ⟨⟨by decide, by decide, by decide, by decide⟩, rfl, by decide⟩

theorem witness_StepAlwaysAnswers :
    (∀ l, State.reset.params.vfOperand ≠ .refuse l) ∧
    (let s := { (vfMode (.refuse .anyOperand)).writeMem 0x200 [0x8F, 0x06] with script := [.cycle true] }
     step s = .refused .vfOperand) := ⟨fun _ => VfOperand.noConfusion, rfl⟩

end Sys2Proof.Tests
end

