-- ==== Sys2Proof/Proofs/Scope.lean ====
section
/-! The parameters of R6 are configuration and not state (R43): each of the host's actions leaves them as they are. -/

namespace Sys2Proof.Machine

@[simp] theorem State.loadProgram_params (s : State) (bytes : List Byte) :
    (s.loadProgram bytes).params = s.params := by
  obtain hlong | hfits := Nat.lt_or_ge progMax bytes.length
  · rw [State.loadProgram_rejected s bytes hlong]
  · rw [State.loadProgram_ok s bytes hfits]
    simp only [State.doReset_params, State.writeMem_params]

/-- A halted cycle writes only its result; a running one is the execute stage, which writes no parameter, and the tail. -/
theorem State.cycle_params {s t : State} {b : Bool} (h : s.cycle b = .next t) : t.params = s.params := by
  obtain ⟨_, rfl⟩ | ⟨_, u, hu, rfl⟩ := State.cycle_cases h
  · rfl
  · calc
      (u.cycleTail b).params = u.params := u.cycleTail_params b
      _ = s.startCycle.params := (State.execFetched_keeps hu).params
      _ = s.params := s.startCycle_params

theorem step_params {s t : State} (h : step s = .next t) : t.params = s.params := by
  obtain ⟨b, _, hc⟩ | ⟨k, _, rfl⟩ | ⟨_, rfl⟩ | ⟨_, rfl⟩ | ⟨_, rfl⟩ | ⟨bytes, _, rfl⟩ := step_cases h
  case inl => exact (State.cycle_params hc).trans s.popScript_params
  all_goals simp

/-- Settles O54: the step is one of the host's six actions, and none of them writes a parameter. -/
theorem parametersNeverChange : Obligations.ParametersNeverChange := fun _ _ => step_params

end Sys2Proof.Machine
end

/-! What each instruction writes of the state of spec/10_state.md (R23, R25, R29 to R36), and the faults it can raise,
said once over all instructions. -/

namespace Sys2Proof.Machine

/-- The parts of the state that an instruction can write, beside PC, the status of R36 and the model's own draw counter. -/
inductive Part where
  | v | i | stack | sp | dt | st | mem | fb | redraw

/-- The parts that an instruction may write, PC aside (R22, R23, R25, R29, R30, R32 to R35, R61). -/
def writtenParts : Instr → List Part
  | .cls _ => [.fb, .redraw]
  | .drw _ _ _ => [.v, .fb, .redraw]
  | .ret _ => [.sp]
  | .call _ => [.stack, .sp]
  | .jp _ | .jpV0 _ | .seImm _ _ | .sneImm _ _ | .seReg _ _ _ | .sneReg _ _ _ | .skp _ | .sknp _ => []
  | .ldImm _ _ | .addImm _ _ | .ldReg _ _ | .orReg _ _ | .andReg _ _ | .xorReg _ _ => [.v]
  | .addReg _ _ | .sub _ _ | .shr _ _ | .subn _ _ | .shl _ _ => [.v]
  | .rnd _ _ | .ldVxDt _ | .ldVxK _ | .loadRegs _ => [.v]
  | .ldI _ | .addI _ | .ldF _ => [.i]
  | .ldDtVx _ => [.dt]
  | .ldStVx _ => [.st]
  | .ldB _ | .storeRegs _ => [.mem]

/-- From `s` to `t` no part outside `ps` changes. -/
structure State.WritesOnly (ps : List Part) (s t : State) : Prop where
  v : .v ∉ ps → t.v = s.v
  i : .i ∉ ps → t.i = s.i
  stack : .stack ∉ ps → t.stack = s.stack
  sp : .sp ∉ ps → t.sp = s.sp
  dt : .dt ∉ ps → t.dt = s.dt
  st : .st ∉ ps → t.st = s.st
  mem : .mem ∉ ps → t.mem = s.mem
  fb : .fb ∉ ps → t.fb = s.fb
  redraw : .redraw ∉ ps → t.redraw = s.redraw

/-- The fault record of R38 is the same in `t` as in `s`. -/
structure State.RecordKept (s t : State) : Prop where
  faultCause : t.faultCause = s.faultCause
  faultPc : t.faultPc = s.faultPc
  faultOpcode : t.faultOpcode = s.faultOpcode
  faultAddr : t.faultAddr = s.faultAddr

/-- From `s` to `t` an instruction completes: it writes no part outside `ps`, and none of the status of R36. -/
structure State.Completes (ps : List Part) (s t : State) : Prop extends
    State.WritesOnly ps s t, State.RecordKept s t where
  runState : t.runState = s.runState
  lastResult : t.lastResult = s.lastResult

/-- The info that R280 and R283 let a fault of cause `c` record. -/
structure FaultCause.InfoLegal (c : FaultCause) (info : Nat) : Prop where
  raised : c ≠ .none
  zero : c ≠ .addressOutOfRange → info = 0
  range : c = .addressOutOfRange → (0x10 ≤ info ∧ info ≤ 0xFF) ∨ (0x1000 ≤ info ∧ info ≤ 0x1000E)

/-- From `s` to `t` a fault with a legal info is taken, and `op` recorded as the opcode. -/
def State.FaultsLegally (op : Word) (s t : State) : Prop :=
  ∃ (c : FaultCause) (info : Nat), c.InfoLegal info ∧ t = s.takeFault c op info

/-- What an instruction does: it completes, or it faults with its own opcode recorded. -/
def State.CompletesOrFaults (ins : Instr) (s t : State) : Prop :=
  s.Completes (writtenParts ins) t ∨ s.FaultsLegally (encode ins) t

/-! The shared operations -/

/-- A fault writes only the status of R36 and PC (R284). -/
theorem State.WritesOnly.takeFault (s : State) (ps : List Part) (c : FaultCause) (op : Word) (info : Nat) :
    s.WritesOnly ps (s.takeFault c op info) := by constructor <;> simp

theorem State.Completes.skipIf (s : State) (ps : List Part) (c : Bool) : s.Completes ps (s.skipIf c) := by
  refine ⟨by constructor <;> simp, by constructor <;> simp, ?_, ?_⟩ <;> simp

/-- Every fault but AddressOutOfRange records the info 0 (R280). -/
theorem FaultCause.infoLegal_zero {c : FaultCause} (hn : c ≠ .none) (ha : c ≠ .addressOutOfRange) : c.InfoLegal 0 where
  raised := hn
  zero _ := rfl
  range h := absurd h ha

/-- A bad address among the at most 16 from a 16-bit `base` on is in R283's range. -/
theorem FaultCause.infoLegal_address {base k : Nat} (hbase : base ≤ 0xFFFF) (hk : k < 16) (hbad : memSize ≤ base + k) :
    FaultCause.addressOutOfRange.InfoLegal (base + k) where
  raised := nofun
  zero h := absurd rfl h
  range _ := .inr ⟨hbad, by omega⟩

/-- A key value of 16 or more is in R283's range. -/
theorem FaultCause.infoLegal_keyValue {b : Byte} (h : 16 ≤ b.toNat) :
    FaultCause.addressOutOfRange.InfoLegal b.toNat where
  raised := nofun
  zero hc := absurd rfl hc
  range _ := .inl ⟨h, Nat.le_of_lt_succ b.isLt⟩

theorem State.CompletesOrFaults.withRange {s d t : State} {ins : Instr} {n : Nat} (hn : n ≤ 16)
    (hd : s.Completes (writtenParts ins) d) (h : s.withRange ins n d = .next t) : s.CompletesOrFaults ins t := by
  obtain ⟨_, e⟩ | ⟨k, ⟨_, hk, hbad, _⟩, e⟩ := s.withRange_cases ins n d
  · rw [e] at h; cases h
    exact .inl hd
  · rw [e] at h; cases h
    exact .inr ⟨_, _, FaultCause.infoLegal_address (Nat.le_of_lt_succ s.i.isLt) (by omega) hbad, rfl⟩

theorem State.CompletesOrFaults.skipOnKey {s t : State} {ins : Instr} {x : Nibble} {w : Bool}
    (h : s.skipOnKey ins x w = .next t) : s.CompletesOrFaults ins t := by
  obtain ⟨_, _, e⟩ | ⟨_, hv, e⟩ := s.skipOnKey_cases ins x w
  · rw [e] at h; cases h
    exact .inl (.skipIf ..)
  · rw [e] at h; cases h
    exact .inr ⟨_, _, FaultCause.infoLegal_keyValue hv, rfl⟩

theorem State.CompletesOrFaults.flagThenValue {s t : State} {ins : Instr} {x : Nibble} {u : RefuseList → Bool}
    {f : State → Bool} {r : State → Byte} (hw : .v ∈ writtenParts ins) (h : s.flagThenValue x u f r = .next t) :
    s.CompletesOrFaults ins t := by
  obtain ⟨b, e⟩ | ⟨_, _, _, e⟩ := s.flagThenValue_cases x u f r
  · rw [e] at h; cases h
    exact .inl ⟨by constructor <;> simp [hw], by constructor <;> rfl, rfl, rfl⟩
  · rw [e] at h; cases h

theorem State.Completes.loadRegs (s : State) (x : Nibble) (bs : List Byte) :
    s.Completes (writtenParts (.loadRegs x)) (s.setRegsFrom 0 bs).advance := by
  rw [State.setRegsFrom_eq]
  exact ⟨by constructor <;> simp [writtenParts], by constructor <;> rfl, rfl, rfl⟩

/-! Every instruction -/

/-- An instruction that answers a next state completes, writing no part beyond its own, or takes a legal fault. -/
theorem exec_cases {ins : Instr} {s t : State} (h : exec ins s = .next t) : s.CompletesOrFaults ins t := by
  cases ins <;> simp only [exec] at h
  case ret x =>
    unfold execRet at h; split at h <;> cases h
    · exact .inr ⟨.stackUnderflow, 0, FaultCause.infoLegal_zero nofun nofun, rfl⟩
    · exact .inl ⟨by constructor <;> simp [writtenParts], by constructor <;> rfl, rfl, rfl⟩
  case call nnn =>
    unfold execCall at h; split at h <;> cases h
    · exact .inr ⟨.stackOverflow, 0, FaultCause.infoLegal_zero nofun nofun, rfl⟩
    · exact .inl ⟨by constructor <;> simp [writtenParts], by constructor <;> simp, by simp, by simp⟩
  case ldVxK x =>
    unfold execLdVxK at h
    split at h <;> cases h <;>
      exact .inl ⟨by constructor <;> simp [writtenParts], by constructor <;> rfl, rfl, rfl⟩
  case ldB x =>
    refine State.CompletesOrFaults.withRange (by decide) ?_ h
    exact ⟨by constructor <;> simp [writtenParts], by constructor <;> rfl, rfl, rfl⟩
  case storeRegs x =>
    refine State.CompletesOrFaults.withRange x.isLt ?_ h
    exact ⟨by constructor <;> simp [writtenParts], by constructor <;> rfl, rfl, rfl⟩
  case drw x y n =>
    refine State.CompletesOrFaults.withRange n.isLt.le ?_ h
    exact ⟨by constructor <;> simp [writtenParts, State.composited], by constructor <;> rfl, rfl, rfl⟩
  case loadRegs x => exact .withRange x.isLt (.loadRegs ..) h
  case skp x => exact .skipOnKey h
  case sknp x => exact .skipOnKey h
  case addReg x y => exact .flagThenValue (by simp [writtenParts]) h
  case sub x y => exact .flagThenValue (by simp [writtenParts]) h
  case shr x y => exact .flagThenValue (by simp [writtenParts]) h
  case subn x y => exact .flagThenValue (by simp [writtenParts]) h
  case shl x y => exact .flagThenValue (by simp [writtenParts]) h
  case seImm x kk => cases h; exact .inl (.skipIf ..)
  case sneImm x kk => cases h; exact .inl (.skipIf ..)
  case seReg x y n => cases h; exact .inl (.skipIf ..)
  case sneReg x y n => cases h; exact .inl (.skipIf ..)
  all_goals
    cases h
    exact .inl ⟨by constructor <;> simp [writtenParts], by constructor <;> rfl, rfl, rfl⟩

theorem exec_writesOnly {ins : Instr} {s t : State} (h : exec ins s = .next t) : s.WritesOnly (writtenParts ins) t := by
  obtain hc | ⟨c, info, _, rfl⟩ := exec_cases h
  · exact hc.toWritesOnly
  · exact .takeFault ..

end Sys2Proof.Machine

/-! The fault record is legal after every step (R38, R280, R283, R285). -/

namespace Sys2Proof.Machine

/-- A record that holds no fault is legal when its other fields are 0 (R38, R45). -/
theorem State.recordLegal_of_none {s : State} (hc : s.faultCause = .none) (hp : s.faultPc = 0) (ho : s.faultOpcode = 0)
    (ha : s.faultAddr = 0) : s.RecordLegal where
  clean _ _ := hc
  none_zero _ := ⟨hp, ho, ha⟩
  other_zero _ := ha
  info_range h := by rw [hc] at h; cases h

/-- A legal record stays legal while nothing writes it and no step but a reset makes the core run. -/
theorem State.RecordLegal.of_kept {s t : State} (hs : s.RecordLegal) (hk : s.RecordKept t) (hp : t.params = s.params)
    (hr : t.runState = .running → s.runState = .running) : t.RecordLegal where
  clean hh ht := hk.faultCause.trans (hs.clean (hp ▸ hh) (hr ht))
  none_zero hc := by
    rw [hk.faultPc, hk.faultOpcode, hk.faultAddr]
    exact hs.none_zero (hk.faultCause ▸ hc)
  other_zero hc := hk.faultAddr.trans (hs.other_zero (hk.faultCause ▸ hc))
  info_range hc := by
    rw [hk.faultAddr]
    exact hs.info_range (hk.faultCause ▸ hc)

/-- A fault with a legal info leaves a legal record, whatever the record held: under ON_FAULT = halt the core does not
run on (R285). -/
theorem State.recordLegal_takeFault (s : State) {c : FaultCause} (op : Word) {info : Nat} (hl : c.InfoLegal info) :
    (s.takeFault c op info).RecordLegal where
  clean hh hr := by
    rw [State.takeFault_params] at hh
    simp [State.takeFault_runState, hh] at hr
  none_zero hc := absurd (by simpa using hc) hl.raised
  other_zero hc := by
    rw [State.takeFault_faultAddr, hl.zero (by simpa using hc)]
    rfl
  info_range hc := by
    have hrange := hl.range (by simpa using hc)
    have hfits : info % 2 ^ 17 = info := Nat.mod_eq_of_lt (by omega)
    rwa [State.takeFault_faultAddr, BitVec.toNat_ofNat, hfits]

theorem State.recordLegal_doReset (s : State) : s.doReset.RecordLegal := State.recordLegal_of_none rfl rfl rfl rfl

/-- A fetch faults on an address of R283's range: PC or PC + 1, from 0x1000 on (R71, R100). -/
theorem State.infoLegal_of_fetch {s : State} {a : Nat} (h : s.fetch = .outOfRange a) :
    FaultCause.addressOutOfRange.InfoLegal a := by
  unfold State.fetch at h
  split at h
  case h_1 b hb =>
    cases h
    obtain ⟨_, k, hk, rfl, hbad, _⟩ := eaRangeFault_some _ _ _ _ hb
    exact FaultCause.infoLegal_address (Nat.le_of_lt_succ s.pc.isLt) (by omega) hbad
  case h_2 => cases h

/-- The execute stage of a cycle, a fault of the fetch or the decode included, keeps the record legal. -/
theorem State.RecordLegal.execFetched {s t : State} (hs : s.RecordLegal) (h : s.execFetched = .next t) :
    t.RecordLegal := by
  obtain ⟨a, hf, e⟩ | ⟨op, w, _, _, e⟩ | ⟨op, ins, _, _, e⟩ := s.execFetched_cases
  · rw [e] at h; cases h
    exact s.recordLegal_takeFault 0 (State.infoLegal_of_fetch hf)
  · rw [e] at h; cases h
    exact s.recordLegal_takeFault w (FaultCause.infoLegal_zero nofun nofun)
  · rw [e] at h
    obtain hc | ⟨c, info, hl, rfl⟩ := exec_cases h
    · exact hs.of_kept hc.toRecordKept (exec_keeps h).params (fun ht => hc.runState ▸ ht)
    · exact s.recordLegal_takeFault _ hl

theorem State.RecordLegal.cycle {s t : State} {b : Bool} (hs : s.RecordLegal) (h : s.cycle b = .next t) :
    t.RecordLegal := by
  obtain ⟨_, rfl⟩ | ⟨_, u, hu, rfl⟩ := State.cycle_cases h
  · exact hs.of_kept (by constructor <;> rfl) rfl id
  · have hstart : s.startCycle.RecordLegal := hs.of_kept (by constructor <;> rfl) rfl id
    have hexec : u.RecordLegal := hstart.execFetched hu
    exact hexec.of_kept (by constructor <;> simp) (by simp) (by simp)

theorem State.RecordLegal.loadProgram {s : State} (hs : s.RecordLegal) (bytes : List Byte) :
    (s.loadProgram bytes).RecordLegal := by
  obtain hlong | hfits := Nat.lt_or_ge progMax bytes.length
  · rw [State.loadProgram_rejected s bytes hlong]
    exact hs.of_kept (by constructor <;> rfl) rfl id
  · rw [State.loadProgram_ok s bytes hfits]
    exact State.recordLegal_of_none rfl rfl rfl rfl

theorem State.RecordLegal.step {s t : State} (hs : s.RecordLegal) (h : step s = .next t) : t.RecordLegal := by
  have hpop : s.popScript.RecordLegal := hs.of_kept (by constructor <;> rfl) rfl id
  obtain ⟨b, _, hc⟩ | ⟨k, _, rfl⟩ | ⟨_, rfl⟩ | ⟨_, rfl⟩ | ⟨_, rfl⟩ | ⟨bytes, _, rfl⟩ := step_cases h
  · exact hpop.cycle hc
  · exact hpop.of_kept (by constructor <;> rfl) rfl id
  · exact hpop.of_kept (by constructor <;> rfl) rfl id
  · exact hpop.of_kept (by constructor <;> rfl) rfl nofun
  · exact State.recordLegal_doReset _
  · exact hpop.loadProgram bytes

/-- Settles O56: a step keeps the record and does not make the core run, takes a fault whose info is in R283's range, or
clears the record by a reset. -/
theorem faultRecordStaysLegal : Obligations.FaultRecordStaysLegal := fun _ _ => State.RecordLegal.step

/-- Settles O58: at power-on memory lists nothing, no fault is recorded and nothing is counted. -/
theorem invariantsHoldAtReset : Obligations.InvariantsHoldAtReset :=
  ⟨rfl, State.recordLegal_of_none rfl rfl rfl rfl, Nat.le_refl 0⟩

end Sys2Proof.Machine

/-! The instructions that write each part of the state (R22 to R35). -/

namespace Sys2Proof.Machine

/-! The display (R34, R35) -/

/-- No instruction clears redraw: CLS and a DRW that draws set it, and everything else leaves it. -/
theorem exec_redraw_of_redraw {ins : Instr} {s t : State} (h : exec ins s = .next t) (hr : s.redraw = true) :
    t.redraw = true := by
  have hframe : .redraw ∉ writtenParts ins → t.redraw = true := fun hw => ((exec_writesOnly h).redraw hw).trans hr
  cases ins with
  | cls x => cases h; rfl
  | drw x y n =>
    obtain ⟨_, e⟩ | ⟨k, _, e⟩ := s.withRange_cases (.drw x y n) n.toNat (s.composited (s.drawSprite x y n))
    · cases e.symm.trans h; rfl
    · cases e.symm.trans h; simpa using hr
  | _ => exact hframe (by simp [writtenParts])

theorem State.execFetched_redraw_of_redraw {s t : State} (h : s.execFetched = .next t) (hr : s.redraw = true) :
    t.redraw = true := by
  obtain ⟨a, _, e⟩ | ⟨op, w, _, _, e⟩ | ⟨op, ins, _, _, e⟩ := s.execFetched_cases
  · cases e.symm.trans h; simpa using hr
  · cases e.symm.trans h; simpa using hr
  · exact exec_redraw_of_redraw (e.symm.trans h) hr

theorem State.cycle_redraw_of_redraw {s t : State} {b : Bool} (h : s.cycle b = .next t) (hr : s.redraw = true) :
    t.redraw = true := by
  obtain ⟨_, rfl⟩ | ⟨_, u, hu, rfl⟩ := State.cycle_cases h
  · exact hr
  · simpa using State.execFetched_redraw_of_redraw hu hr

/-- A step whose action is a Cycle is that cycle, on the state with the action taken off the script. -/
theorem step_of_cycle {s t : State} {b : Bool} (ha : s.nextAction = .cycle b) (h : step s = .next t) :
    s.popScript.cycle b = .next t := by
  simpa only [step, State.hostStep, ha, State.perform] using h

/-- Settles O18: the two instructions are the writers of these parts, and a cycle is at most one instruction. -/
theorem onlyDisplayInstructionsDraw : Obligations.OnlyDisplayInstructionsDraw := by
  refine ⟨fun ins s t hcls hdrw h => ?_, fun s t b ha h hr => State.cycle_redraw_of_redraw (step_of_cycle ha h) hr⟩
  have hw : .fb ∉ writtenParts ins ∧ .redraw ∉ writtenParts ins := by
    cases ins with
    | cls x => exact absurd rfl (hcls x)
    | drw x y n => exact absurd rfl (hdrw x y n)
    | _ => simp [writtenParts]
  exact ⟨(exec_writesOnly h).fb hw.1, (exec_writesOnly h).redraw hw.2⟩

/-! The stack (R29, R30) -/

theorem State.stackAt_congr {s t : State} (h : t.stack = s.stack) (j : Nat) : t.stackAt j = s.stackAt j := by
  simp only [State.stackAt, h]

theorem State.stackAt_push_of_ne (s : State) (w : Word) {j : Nat} (hj : j ≠ s.sp.val) :
    (s.push w).stackAt j = s.stackAt j := by
  by_cases hsp : s.sp.val < 32
  · simp [State.stackAt, (s.push_of_lt w hsp).1, hj.symm]
  · simp [State.push, hsp]

theorem execCall_stackAt_of_ne {nnn : Addr} {s t : State} (h : exec (.call nnn) s = .next t) {j : Nat}
    (hj : j ≠ s.sp.val) : t.stackAt j = s.stackAt j := by
  simp only [exec, execCall] at h
  split at h <;> cases h
  · exact State.stackAt_congr (s.takeFault_stack ..) j
  · exact s.stackAt_push_of_ne s.pcNext hj

/-- Settles O24: CALL and RET are the writers of SP, and CALL pushes at SP or faults. -/
theorem onlyCallWritesStack : Obligations.OnlyCallWritesStack := by
  intro ins s t h
  have hstack (hcall : ∀ nnn, ins ≠ .call nnn) : t.stack = s.stack := by
    refine (exec_writesOnly h).stack ?_
    cases ins with
    | call nnn => exact absurd rfl (hcall nnn)
    | _ => simp [writtenParts]
  refine ⟨hstack, fun j hj => ?_, fun hcall hret => (exec_writesOnly h).sp ?_⟩
  · cases ins with
    | call nnn => exact execCall_stackAt_of_ne h hj
    | _ => exact State.stackAt_congr (hstack nofun) j
  · cases ins with
    | call nnn => exact absurd rfl (hcall nnn)
    | ret x => exact absurd rfl (hret x)
    | _ => simp [writtenParts]

/-! The registers (R22, R23) -/

theorem flagByte_eq_zero_or_one (f : Bool) : flagByte f = 0 ∨ flagByte f = 1 := by
  cases f
  · exact .inl rfl
  · exact .inr rfl

/-- The flag that a flag-setting instruction leaves where VF is not its destination (R106). -/
theorem State.getV_vf_of_flagThenValue {s t : State} {x : Nibble} {u : RefuseList → Bool} {f : State → Bool}
    {r : State → Byte} (hx : x ≠ vf) (h : s.flagThenValue x u f r = .next t) : t.getV vf = flagByte (f s) := by
  obtain ⟨b, e⟩ | ⟨_, _, _, e⟩ := s.flagThenValue_cases x u f r
  · cases e.symm.trans h
    rw [State.getV_advance, State.getV_setV_of_ne _ _ hx.symm, State.getV_setV_same]
  · cases e.symm.trans h

/-- The flag that a DRW which does not fault leaves is the collision (R131). -/
theorem getV_vf_of_execDrw {s t : State} {x y n : Nibble} (hr : s.rangeOk n.toNat)
    (h : exec (.drw x y n) s = .next t) : t.getV vf = flagByte (s.drawSprite x y n).collide := by
  cases (State.withRange_ok (.drw x y n) _ hr).symm.trans h
  rw [State.composited, State.getV_advance, State.getV_setV_same]

/-- Settles O34: what these instructions leave in VF is a flag byte. -/
theorem flagIsZeroOrOne : Obligations.FlagIsZeroOrOne := by
  refine fun s t x y n => ⟨fun hx h => ?_, fun hr h => ?_⟩
  · simp only [exec] at h
    obtain h | h | h | h | h := h <;>
    · rw [State.getV_vf_of_flagThenValue hx h]
      exact flagByte_eq_zero_or_one _
  · rw [getV_vf_of_execDrw hr h]
    exact flagByte_eq_zero_or_one _

/-- Settles O35: none of the eighteen has V among the parts it writes. -/
theorem onlyListedInstructionsWriteRegisters : Obligations.OnlyListedInstructionsWriteRegisters := by
  intro s t x y n nnn kk ins hins h
  have hw : .v ∉ writtenParts ins := by
    revert ins
    simp [writtenParts]
  exact State.getV_congr ((exec_writesOnly h).v hw)

/-! The index register and the timers (R25, R32, R33) -/

/-- Settles O45: each of the three has the writers named, and no other. -/
theorem indexAndTimersHaveTheirWriters : Obligations.IndexAndTimersHaveTheirWriters := by
  refine fun ins s t h => ⟨fun hldI haddI hldF => (exec_writesOnly h).i ?_, fun hdt => (exec_writesOnly h).dt ?_,
    fun hst => (exec_writesOnly h).st ?_⟩
  · cases ins with
    | ldI nnn => exact absurd rfl (hldI nnn)
    | addI x => exact absurd rfl (haddI x)
    | ldF x => exact absurd rfl (hldF x)
    | _ => simp [writtenParts]
  · cases ins with
    | ldDtVx x => exact absurd rfl (hdt x)
    | _ => simp [writtenParts]
  · cases ins with
    | ldStVx x => exact absurd rfl (hst x)
    | _ => simp [writtenParts]

end Sys2Proof.Machine

/-! What the steps that are no instruction do to the inputs and the counters (R39, R40), and the reset state (R45, R46). -/

namespace Sys2Proof.Machine

/-! The key input (R40) -/

@[simp] theorem State.loadProgram_keys (s : State) (bytes : List Byte) : (s.loadProgram bytes).keys = s.keys := by
  unfold State.loadProgram
  split <;> rfl

theorem State.cycle_keys {s t : State} {b : Bool} (h : s.cycle b = .next t) : t.keys = s.keys := by
  obtain ⟨_, rfl⟩ | ⟨_, u, hu, rfl⟩ := State.cycle_cases h
  · rfl
  · exact (u.cycleTail_keys b).trans (State.execFetched_keeps hu).keys

/-- Settles O51: of the host's actions only SetKeys writes the key input. -/
theorem onlySetKeysChangesKeys : Obligations.OnlySetKeysChangesKeys := by
  intro s t hkeys h
  obtain ⟨b, _, hc⟩ | ⟨k, ha, _⟩ | ⟨_, rfl⟩ | ⟨_, rfl⟩ | ⟨_, rfl⟩ | ⟨bytes, _, rfl⟩ := step_cases h
  · exact (State.cycle_keys hc).trans s.popScript_keys
  · exact absurd ha (hkeys k)
  all_goals simp

/-! The counters (R39, R301, R311) -/

@[simp] theorem State.loadProgram_cycleCount (s : State) (bytes : List Byte) :
    (s.loadProgram bytes).cycleCount = s.cycleCount := by
  unfold State.loadProgram
  split <;> rfl

@[simp] theorem State.loadProgram_tickCount (s : State) (bytes : List Byte) :
    (s.loadProgram bytes).tickCount = s.tickCount := by
  unfold State.loadProgram
  split <;> rfl

/-- The cycle tail counts a cycle unless a fault has halted the core (R285). -/
theorem State.cycleTail_cycleCount (s : State) (b : Bool) :
    (s.cycleTail b).cycleCount = if s.runState = .halted then s.cycleCount else s.cycleCount + 1 := by
  unfold State.cycleTail
  cases s.runState <;> cases b <;> rfl

/-- The cycle tail counts a tick when one is due, unless a fault has halted the core (R285). -/
theorem State.cycleTail_tickCount (s : State) (b : Bool) :
    (s.cycleTail b).tickCount = if s.runState = .running ∧ b = true then s.tickCount + 1 else s.tickCount := by
  unfold State.cycleTail
  cases s.runState <;> cases b <;> rfl

/-- What a cycle performed in Running counts: itself, unless it ends Halted (R285, R311). -/
theorem State.cycle_cycleCount_of_running {s t : State} {b : Bool} (hr : s.runState = .running)
    (h : s.cycle b = .next t) :
    t.cycleCount = if t.runState = .halted then s.cycleCount else s.cycleCount + 1 := by
  obtain ⟨hh, _⟩ | ⟨_, u, hu, rfl⟩ := State.cycle_cases h
  · rw [hr] at hh; cases hh
  · rw [State.cycleTail_cycleCount, State.cycleTail_runState, (State.execFetched_keeps hu).cycleCount]
    rfl

theorem State.cycle_counts_le {s t : State} {b : Bool} (h : s.cycle b = .next t) :
    s.cycleCount ≤ t.cycleCount ∧ s.tickCount ≤ t.tickCount := by
  obtain ⟨_, rfl⟩ | ⟨_, u, hu, rfl⟩ := State.cycle_cases h
  · exact ⟨le_rfl, le_rfl⟩
  · have hkept := State.execFetched_keeps hu
    rw [State.cycleTail_cycleCount, State.cycleTail_tickCount, hkept.cycleCount, hkept.tickCount]
    constructor <;> split <;> simp

theorem step_counts_of_not_cycle {s t : State} (ha : ∀ b, s.nextAction ≠ .cycle b) (h : step s = .next t) :
    t.cycleCount = s.cycleCount ∧ t.tickCount = s.tickCount := by
  obtain ⟨b, hb, _⟩ | ⟨k, _, rfl⟩ | ⟨_, rfl⟩ | ⟨_, rfl⟩ | ⟨_, rfl⟩ | ⟨bytes, _, rfl⟩ := step_cases h
  · exact absurd hb (ha b)
  all_goals simp

theorem step_counts_le {s t : State} (h : step s = .next t) :
    s.cycleCount ≤ t.cycleCount ∧ s.tickCount ≤ t.tickCount := by
  by_cases ha : ∃ b, s.nextAction = .cycle b
  · obtain ⟨b, hb⟩ := ha
    exact State.cycle_counts_le (s := s.popScript) (step_of_cycle hb h)
  · obtain ⟨hc, ht⟩ := step_counts_of_not_cycle (not_exists.mp ha) h
    exact ⟨hc.ge, ht.ge⟩

/-- Settles O53: only the tail of a cycle writes the counters, and it only adds. -/
theorem countersNeverDecrease : Obligations.CountersNeverDecrease := by
  refine ⟨rfl, rfl, fun s t h => ⟨(step_counts_le h).1, (step_counts_le h).2, fun ha => step_counts_of_not_cycle ha h,
    fun b ha hr => ?_⟩⟩
  exact State.cycle_cycleCount_of_running (s := s.popScript) hr (step_of_cycle ha h)

/-! Reset and power-on (R45, R46, R340) -/

theorem step_of_script {s : State} {a : HostAction} {rest : List HostAction} (h : s.script = a :: rest) :
    step s = s.popScript.perform a := by
  simp only [step, State.hostStep, State.nextAction, h]

@[simp] theorem State.getV_doReset (s : State) (x : Nibble) : s.doReset.getV x = 0 := by
  simp [State.getV]

@[simp] theorem State.stackAt_doReset (s : State) {j : Nat} (hj : j < 32) : s.doReset.stackAt j = 0 := by
  simp [State.stackAt, hj]

@[simp] theorem State.cell_doReset (s : State) (p : Nat) : s.doReset.cell p = false := Fb.cell_clear p

/-- Memory after a reset: the font, and above it every byte as it was (R340). -/
theorem State.memByte_doReset (s : State) (a : Nat) :
    s.doReset.memByte a = if h : a < fontSize then s.params.font[a] else s.memByte a :=
  Memory.read_installFont _ _ a

theorem State.memByte_doReset_of_lt (s : State) {a : Nat} (h : a < fontSize) :
    s.doReset.memByte a = s.params.font[a] := by
  rw [State.memByte_doReset, dif_pos h]

theorem State.memByte_doReset_of_ge (s : State) {a : Nat} (h : fontSize ≤ a) : s.doReset.memByte a = s.memByte a := by
  rw [State.memByte_doReset, dif_neg h.not_gt]

/-- Where nothing is listed, memory above the font reads as INIT_MEM (R46). -/
theorem State.memByte_of_mem_nil {s : State} (hm : s.mem = []) {a : Nat} (h : fontSize ≤ a) :
    s.memByte a = Config.initMem a := by
  simp [State.memByte, Memory.read, Memory.find, Memory.unlisted, hm, h]

/-- The power-on state is the reset of itself: nothing in it is left to reset. -/
theorem State.doReset_reset : State.reset.doReset = State.reset := rfl

/-- Settles O48: the step is `doReset`, which installs the font and writes R45's value in every field that it does not
keep. -/
theorem resetReinitializes : Obligations.ResetReinitializes := by
  intro s rest hs
  refine ⟨s.popScript.doReset, step_of_script hs, State.getV_doReset _, rfl, rfl, rfl,
    fun _ hj => State.stackAt_doReset _ hj, rfl, rfl, fun p _ => State.cell_doReset _ p, rfl, rfl, rfl, rfl, rfl, rfl, rfl,
    fun _ ha => State.memByte_doReset_of_lt _ ha, fun a ha => ?_, rfl, rfl, rfl⟩
  exact (State.memByte_doReset_of_ge _ ha).trans (State.memByte_congr rfl rfl a)

/-- Settles O50: the power-on state is a reset state in which memory lists nothing. -/
theorem powerOnState : Obligations.PowerOnState := by
  unfold Obligations.PowerOnState
  rw [← State.doReset_reset]
  exact ⟨State.getV_doReset _, rfl, rfl, rfl, fun _ hj => State.stackAt_doReset _ hj, rfl, rfl,
    fun p _ => State.cell_doReset _ p, rfl, rfl, rfl, rfl, rfl, rfl, rfl, rfl, rfl, rfl,
    fun _ ha => State.memByte_doReset_of_lt _ ha, fun _ ha => State.memByte_of_mem_nil rfl ha⟩

end Sys2Proof.Machine

/-! Memory (spec/20_memory.md): the canonical form after every step (R60, R66), and what a fetch reads (R67, R71, R83). -/

namespace Sys2Proof.Machine

/-! The instructions that write memory (R61) -/

theorem mem_notMem_writtenParts {ins : Instr} (hldB : ∀ x, ins ≠ .ldB x) (hstore : ∀ x, ins ≠ .storeRegs x) :
    .mem ∉ writtenParts ins := by
  cases ins with
  | ldB x => exact absurd rfl (hldB x)
  | storeRegs x => exact absurd rfl (hstore x)
  | _ => simp [writtenParts]

/-- Settles O41: every instruction but the two has no memory among the parts it writes. -/
theorem onlyStoresWriteMemory : Obligations.OnlyStoresWriteMemory := fun _ _ _ hldB hstore h =>
  State.memByte_congr ((exec_writesOnly h).mem (mem_notMem_writtenParts hldB hstore)) (exec_keeps h).params

/-- A store leaves memory as it was, when it faults, or with its run of bytes written from I on (R68, R72). -/
theorem State.mem_of_withRange_writeMem {s t : State} {ins : Instr} {n : Nat} {bytes : List Byte}
    (h : s.withRange ins n (s.writeMem s.i.toNat bytes).advance = .next t) :
    t.mem = s.mem ∨ t.mem = (s.writeMem s.i.toNat bytes).mem := by
  obtain ⟨_, e⟩ | ⟨k, _, e⟩ := s.withRange_cases ins n (s.writeMem s.i.toNat bytes).advance
  · cases e.symm.trans h
    exact .inr rfl
  · cases e.symm.trans h
    exact .inl (s.takeFault_mem ..)

/-- All that an instruction can do to memory: nothing, or one run of bytes from I on. -/
theorem exec_mem_cases {ins : Instr} {s t : State} (h : exec ins s = .next t) :
    t.mem = s.mem ∨ ∃ bytes, t.mem = (s.writeMem s.i.toNat bytes).mem := by
  cases ins with
  | ldB x => exact (State.mem_of_withRange_writeMem h).imp_right fun hw => ⟨_, hw⟩
  | storeRegs x => exact (State.mem_of_withRange_writeMem h).imp_right fun hw => ⟨_, hw⟩
  | _ => exact .inl ((exec_writesOnly h).mem (by simp [writtenParts]))

/-! The canonical form (R60, R66) -/

section
variable {s t : State}

theorem State.memCanonical.of_kept (hs : s.memCanonical) (hm : t.mem = s.mem) (hp : t.params = s.params) :
    t.memCanonical := by
  rwa [State.memCanonical, hm, hp]

theorem State.memCanonical.writeMem (hs : s.memCanonical) (a : Nat) (bytes : List Byte) :
    (s.writeMem a bytes).memCanonical := Memory.wf_writeRun _ _ a bytes hs

theorem State.memCanonical.doReset (hs : s.memCanonical) : s.doReset.memCanonical := Memory.wf_installFont _ _ hs

theorem State.memCanonical.exec {ins : Instr} (hs : s.memCanonical) (h : exec ins s = .next t) : t.memCanonical := by
  obtain hm | ⟨bytes, hm⟩ := exec_mem_cases h
  · exact hs.of_kept hm (exec_keeps h).params
  · exact (hs.writeMem s.i.toNat bytes).of_kept hm (exec_keeps h).params

theorem State.memCanonical.execFetched (hs : s.memCanonical) (h : s.execFetched = .next t) : t.memCanonical := by
  obtain ⟨a, _, e⟩ | ⟨op, w, _, _, e⟩ | ⟨op, ins, _, _, e⟩ := s.execFetched_cases
  · cases e.symm.trans h
    exact hs.of_kept (s.takeFault_mem ..) (s.takeFault_params ..)
  · cases e.symm.trans h
    exact hs.of_kept (s.takeFault_mem ..) (s.takeFault_params ..)
  · exact hs.exec (e.symm.trans h)

/-- A halted cycle writes only its result; the tail of a running one writes no memory. -/
theorem State.memCanonical.cycle {b : Bool} (hs : s.memCanonical) (h : s.cycle b = .next t) : t.memCanonical := by
  obtain ⟨_, rfl⟩ | ⟨_, u, hu, rfl⟩ := State.cycle_cases h
  · exact hs
  · have hexec : u.memCanonical := State.memCanonical.execFetched (s := s.startCycle) hs hu
    exact hexec.of_kept (u.cycleTail_mem b) (u.cycleTail_params b)

theorem State.memCanonical.loadProgram (hs : s.memCanonical) (bytes : List Byte) :
    (s.loadProgram bytes).memCanonical := by
  obtain hlong | hfits := Nat.lt_or_ge progMax bytes.length
  · rw [State.loadProgram_rejected s bytes hlong]
    exact hs
  · rw [State.loadProgram_ok s bytes hfits]
    exact (hs.writeMem progBase bytes).doReset

theorem State.memCanonical.step (hs : s.memCanonical) (h : step s = .next t) : t.memCanonical := by
  have hpop : s.popScript.memCanonical := hs
  obtain ⟨b, _, hc⟩ | ⟨k, _, rfl⟩ | ⟨_, rfl⟩ | ⟨_, rfl⟩ | ⟨_, rfl⟩ | ⟨bytes, _, rfl⟩ := step_cases h
  · exact hpop.cycle hc
  · exact hpop
  · exact hpop
  · exact hpop
  · exact hpop.doReset
  · exact hpop.loadProgram bytes

end

/-- Settles O55: a step writes memory by byte writes below 4096 or by re-installing the font, and both keep the form. -/
theorem memoryStaysCanonical : Obligations.MemoryStaysCanonical := fun _ _ => State.memCanonical.step

/-! The fetch (R67, R71, R100) -/

theorem opOfBytes_toNat (hi lo : Byte) : (opOfBytes hi lo).toNat = 256 * hi.toNat + lo.toNat := by
  rw [opOfBytes, BitVec.toNat_append, ← Nat.shiftLeft_add_eq_or_of_lt lo.isLt, Nat.shiftLeft_eq, Nat.mul_comm]

/-- Neither address of the fetch faults: it reads the two bytes from PC on. -/
theorem State.fetch_of_inRange {s : State} (h : s.params.addrPolicy = .wrap ∨ s.pc.toNat < 0xFFF) :
    s.fetch = .opcode (opOfBytes (s.memByte (memIndex s.pc.toNat)) (s.memByte (memIndex (s.pc.toNat + 1)))) := by
  have hnone : eaRangeFault s.params.addrPolicy s.pc.toNat 2 = none := by
    cases hp : s.params.addrPolicy with
    | wrap => exact eaRangeFault_wrap ..
    | fault =>
      have hpc : s.pc.toNat < 0xFFF := h.resolve_left (by simp [hp])
      exact (eaRangeFault_fault_none ..).mpr (.inr (by simp only [memSize]; omega))
  rw [State.fetch, hnone]

/-- The fetch faults on the first of its two addresses that is out of range. -/
theorem State.fetch_of_firstBad {s : State} {k : Nat} (hp : s.params.addrPolicy = .fault) (hk : k < 2)
    (hbad : memSize ≤ s.pc.toNat + k) (hgood : ∀ j < k, s.pc.toNat + j < memSize) :
    s.fetch = .outOfRange (s.pc.toNat + k) := by
  rw [State.fetch, hp, eaRangeFault_of_first _ _ k hk hbad hgood]

/-- Settles O6: the three clauses are the fetch in range, and the fetch with the second or the first address bad. -/
theorem fetchReadsBigEndian : Obligations.FetchReadsBigEndian := by
  refine fun s => ⟨fun h => ⟨_, State.fetch_of_inRange h, opOfBytes_toNat ..⟩, fun hp hpc => ?_, fun hp hpc => ?_⟩
  · have hfault := State.fetch_of_firstBad (k := 1) hp (by decide) (by simp [hpc]) (by simp [hpc])
    rwa [hpc] at hfault
  · exact State.fetch_of_firstBad (k := 0) hp (by decide) hpc (by simp)

/-- The fetch of an opcode whose two bytes stand in memory from PC on. -/
theorem State.fetch_of_bytes {s : State} {op : Word} (h : s.params.addrPolicy = .wrap ∨ s.pc.toNat < 0xFFF)
    (hhi : s.memByte (memIndex s.pc.toNat) = opHi op) (hlo : s.memByte (memIndex (s.pc.toNat + 1)) = opLo op) :
    s.fetch = .opcode op := by
  rw [State.fetch_of_inRange h, hhi, hlo, opOfBytes_hi_lo]

/-- Settles O7: the two bytes of the run just written are those that the fetch reads. -/
theorem fetchSeesEarlierWrites : Obligations.FetchSeesEarlierWrites := by
  intro s op h
  have hlen : [opHi op, opLo op].length ≤ memSize := by simp [memSize]
  have hrun := s.memByte_writeMem s.pc.toNat [opHi op, opLo op] hlen
  exact State.fetch_of_bytes h (hrun 0 (by simp)) (hrun 1 (by simp))

/-! Bad addresses (R72, R284, R286) -/

/-- An instruction over a range with a bad address takes a precise fault at the smallest bad offset. -/
theorem State.withRange_faultedTo (s : State) {n k : Nat} (ins : Instr) (done : State) (h : s.firstBad n k) :
    ∃ t, s.withRange ins n done = .next t ∧
      s.FaultedTo t .addressOutOfRange (encode ins) (s.i.toNat + k) :=
  ⟨_, State.withRange_bad ins done h, s.takeFault_faultedTo ..⟩

/-- Settles O17: each of the four checks its whole range before it writes. -/
theorem badAddressFaultsPrecisely : Obligations.BadAddressFaultsPrecisely := fun s _ =>
  ⟨fun x y n => s.withRange_faultedTo (.drw x y n) _, fun x => s.withRange_faultedTo (.ldB x) _,
    fun x => s.withRange_faultedTo (.storeRegs x) _, fun x => s.withRange_faultedTo (.loadRegs x) _⟩

end Sys2Proof.Machine

/-! Decoding and encoding (spec/30_encoding.md): the round trip both ways, the opcode map and the invalid opcodes. -/

namespace Sys2Proof

/-! The word of an instruction decodes to it (R92, R96) -/

theorem decodeOp_encode (strict : Bool) (i : Instr) (hw : wellFormed strict i = true) :
    decodeOp strict (encode i) = .instr i := by
  cases i
  case cls x | ret x =>
    simp only [encode, decodeOp, decodeFamily0, opFamily_xkk, opX_xkk, opKk_xkk]
    exact instrIf_eq_instr.mpr ⟨hw, rfl⟩
  case seReg x y n | sneReg x y n =>
    simp only [encode, decodeOp, opFamily_xyn, opX_xyn, opY_xyn, opN_xyn]
    exact instrIf_eq_instr.mpr ⟨hw, rfl⟩
  all_goals simp [encode, decodeOp, decodeFamily8, decodeFamilyE, decodeFamilyF]

/-- Settles O1: decoding takes apart the fields that the encoding has put together. -/
theorem decodeOfEncode : Obligations.DecodeOfEncode := fun strict i hw =>
  ⟨decodeOp_encode strict i hw, fun rest => decodeBytes_encodeBytes strict i i rest (decodeOp_encode strict i hw)⟩

/-! The instruction that a word decodes to is encoded by that word (R90, R101) -/

/-- The verdict on `op` loses nothing of it: the instruction is well-formed and `op` its encoding, or `op` is named. -/
def Verdict.Describes (strict : Bool) (op : Word) : Verdict → Prop
  | .instr i => encode i = op ∧ wellFormed strict i = true
  | .invalid w => w = op

/-- The family that the dispatch of `decodeOp` leaves to its last branch. -/
theorem nibble_eq_F_of_ne {h : Nibble} (h0 : h ≠ 0x0#4) (h1 : h ≠ 0x1#4) (h2 : h ≠ 0x2#4) (h3 : h ≠ 0x3#4) (h4 : h ≠ 0x4#4)
    (h5 : h ≠ 0x5#4) (h6 : h ≠ 0x6#4) (h7 : h ≠ 0x7#4) (h8 : h ≠ 0x8#4) (h9 : h ≠ 0x9#4) (hA : h ≠ 0xA#4)
    (hB : h ≠ 0xB#4) (hC : h ≠ 0xC#4) (hD : h ≠ 0xD#4) (hE : h ≠ 0xE#4) : h = 0xF := by
  have hlast : ∀ k : Nibble,
      k ∉ [0x0#4, 0x1#4, 0x2#4, 0x3#4, 0x4#4, 0x5#4, 0x6#4, 0x7#4, 0x8#4, 0x9#4, 0xA#4, 0xB#4, 0xC#4, 0xD#4, 0xE#4] →
        k = 0xF := by decide
  exact hlast h (by simp [h0, h1, h2, h3, h4, h5, h6, h7, h8, h9, hA, hB, hC, hD, hE])

section
variable {strict : Bool} {op : Word}

theorem append_xkk_of_fields {h : Nibble} {kk : Byte} (hf : opFamily op = h) (hk : opKk op = kk) :
    h ++ opX op ++ kk = op := by
  rw [← hf, ← hk, word_eq_xkk]

theorem append_xyn_of_fields {h n : Nibble} (hf : opFamily op = h) (hn : opN op = n) :
    h ++ opX op ++ opY op ++ n = op := by
  rw [← hf, ← hn, word_eq_xyn]

theorem append_nnn_of_family {h : Nibble} (hf : opFamily op = h) : h ++ opNnn op = op := by
  rw [← hf, word_eq_nnn]

theorem instrIf_describes {ok : Bool} {i : Instr} (he : encode i = op) (hok : ok = true → wellFormed strict i = true) :
    (instrIf op ok i).Describes strict op := by
  cases ok with
  | true => exact ⟨he, hok rfl⟩
  | false => exact rfl

theorem decodeFamily0_describes (hf : opFamily op = 0x0) : (decodeFamily0 strict op).Describes strict op := by
  unfold decodeFamily0
  split
  case h_1 hk => exact instrIf_describes (append_xkk_of_fields hf hk) id
  case h_2 hk => exact instrIf_describes (append_xkk_of_fields hf hk) id
  case h_3 => exact rfl

theorem decodeFamily8_describes (hf : opFamily op = 0x8) : (decodeFamily8 op).Describes strict op := by
  unfold decodeFamily8
  split
  case h_10 => exact rfl
  all_goals exact ⟨append_xyn_of_fields hf ‹_›, rfl⟩

theorem decodeFamilyE_describes (hf : opFamily op = 0xE) : (decodeFamilyE op).Describes strict op := by
  unfold decodeFamilyE
  split
  case h_3 => exact rfl
  all_goals exact ⟨append_xkk_of_fields hf ‹_›, rfl⟩

theorem decodeFamilyF_describes (hf : opFamily op = 0xF) : (decodeFamilyF op).Describes strict op := by
  unfold decodeFamilyF
  split
  case h_10 => exact rfl
  all_goals exact ⟨append_xkk_of_fields hf ‹_›, rfl⟩

end

theorem decodeOp_describes (strict : Bool) (op : Word) : (decodeOp strict op).Describes strict op := by
  unfold decodeOp
  split
  case h_1 hf => exact decodeFamily0_describes hf
  case h_6 hf | h_10 hf => exact instrIf_describes (append_xyn_of_fields hf rfl) id
  case h_9 hf => exact decodeFamily8_describes hf
  case h_14 hf => exact ⟨append_xyn_of_fields hf rfl, rfl⟩
  case h_15 hf => exact decodeFamilyE_describes hf
  case h_16 =>
    have hf : opFamily op = 0xF := by apply nibble_eq_F_of_ne <;> assumption
    exact decodeFamilyF_describes hf
  case h_2 hf | h_3 hf | h_11 hf | h_12 hf => exact ⟨append_nnn_of_family hf, rfl⟩
  case h_4 hf | h_5 hf | h_7 hf | h_8 hf | h_13 hf => exact ⟨append_xkk_of_fields hf rfl, rfl⟩

theorem encode_of_decodeOp {strict : Bool} {op : Word} {i : Instr} (h : decodeOp strict op = .instr i) :
    encode i = op ∧ wellFormed strict i = true := by
  have hd := decodeOp_describes strict op
  rwa [h] at hd

theorem eq_of_decodeOp_invalid {strict : Bool} {op w : Word} (h : decodeOp strict op = .invalid w) : w = op := by
  have hd := decodeOp_describes strict op
  rwa [h] at hd

/-- Settles O2: every branch of the decoder puts each field of the word into the instruction, or names the word. -/
theorem encodeOfDecode : Obligations.EncodeOfDecode := fun _ _ =>
  ⟨fun _ => encode_of_decodeOp, fun _ => eq_of_decodeOp_invalid⟩

/-! The opcode map (R96, R97) -/

@[simp] theorem opFamily_ofNat (k : Nat) : opFamily (BitVec.ofNat 16 k) = BitVec.ofNat 4 (k / 4096) := by
  apply BitVec.eq_of_toNat_eq
  simp [opFamily, Nat.shiftRight_eq_div_pow]
  omega

@[simp] theorem opX_ofNat (k : Nat) : opX (BitVec.ofNat 16 k) = BitVec.ofNat 4 (k / 256) := by
  apply BitVec.eq_of_toNat_eq
  simp [opX, Nat.shiftRight_eq_div_pow]
  omega

@[simp] theorem opN_ofNat (k : Nat) : opN (BitVec.ofNat 16 k) = BitVec.ofNat 4 k := by
  apply BitVec.eq_of_toNat_eq
  simp [opN]

@[simp] theorem opKk_ofNat (k : Nat) : opKk (BitVec.ofNat 16 k) = BitVec.ofNat 8 k := by
  apply BitVec.eq_of_toNat_eq
  simp [opKk]

/-- A mask and a match of a word are a mask and a match of each of its fields. -/
theorem fields_of_and_eq {op mask m : Word} (h : op &&& mask = m) :
    opFamily op &&& opFamily mask = opFamily m ∧ opX op &&& opX mask = opX m ∧ opN op &&& opN mask = opN m ∧
      opKk op &&& opKk mask = opKk m := by
  subst h
  simp only [opFamily, opX, opN, opKk, BitVec.extractLsb'_and, and_self]

/-- The mask of a row keeps the fields that the decoder dispatches on, so the match fixes its way to the row. -/
theorem decodeOp_of_row {strict : Bool} {op : Word} {n : Nat} {r : Word × Word}
    (hr : (opcodeMap strict)[n]? = some r) (h : op &&& r.1 = r.2) :
    ∃ i, decodeOp strict op = .instr i ∧ rowOf i = n := by
  have hfields := fields_of_and_eq h
  have hnibble (x : Nibble) : x &&& 15#4 = x := BitVec.and_allOnes
  have hbyte (b : Byte) : b &&& 255#8 = b := BitVec.and_allOnes
  have hn : n < 34 := by
    obtain ⟨hlt, _⟩ := List.getElem?_eq_some_iff.mp hr
    simpa [opcodeMap] using hlt
  cases strict <;> interval_cases n <;> cases hr
  all_goals
    simp only [hnibble, hbyte, opFamily_ofNat, opX_ofNat, opN_ofNat, opKk_ofNat, BitVec.ofNat_eq_ofNat,
      Bool.false_eq_true, if_true, if_false, Nat.reduceDiv, BitVec.reduceOfNat] at hfields
    simp [decodeOp, decodeFamily0, decodeFamily8, decodeFamilyE, decodeFamilyF, instrIf, rowOf, hfields]

/-- The encoding of each instruction matches the instruction's row. -/
theorem encode_matches_rowOf : ∀ i : Instr, Laws.Encoding.Statement i
  | .cls x => Laws.Encoding.cls x
  | .ret x => Laws.Encoding.ret x
  | .jp nnn => Laws.Encoding.jp nnn
  | .call nnn => Laws.Encoding.call nnn
  | .seImm x kk => Laws.Encoding.seImm x kk
  | .sneImm x kk => Laws.Encoding.sneImm x kk
  | .seReg x y n => Laws.Encoding.seReg x y n
  | .ldImm x kk => Laws.Encoding.ldImm x kk
  | .addImm x kk => Laws.Encoding.addImm x kk
  | .ldReg x y => Laws.Encoding.ldReg x y
  | .orReg x y => Laws.Encoding.orReg x y
  | .andReg x y => Laws.Encoding.andReg x y
  | .xorReg x y => Laws.Encoding.xorReg x y
  | .addReg x y => Laws.Encoding.addReg x y
  | .sub x y => Laws.Encoding.sub x y
  | .shr x y => Laws.Encoding.shr x y
  | .subn x y => Laws.Encoding.subn x y
  | .shl x y => Laws.Encoding.shl x y
  | .sneReg x y n => Laws.Encoding.sneReg x y n
  | .ldI nnn => Laws.Encoding.ldI nnn
  | .jpV0 nnn => Laws.Encoding.jpV0 nnn
  | .rnd x kk => Laws.Encoding.rnd x kk
  | .drw x y n => Laws.Encoding.drw x y n
  | .skp x => Laws.Encoding.skp x
  | .sknp x => Laws.Encoding.sknp x
  | .ldVxDt x => Laws.Encoding.ldVxDt x
  | .ldVxK x => Laws.Encoding.ldVxK x
  | .ldDtVx x => Laws.Encoding.ldDtVx x
  | .ldStVx x => Laws.Encoding.ldStVx x
  | .addI x => Laws.Encoding.addI x
  | .ldF x => Laws.Encoding.ldF x
  | .ldB x => Laws.Encoding.ldB x
  | .storeRegs x => Laws.Encoding.storeRegs x
  | .loadRegs x => Laws.Encoding.loadRegs x

theorem row_of_decodeOp {strict : Bool} {op : Word} {i : Instr} (h : decodeOp strict op = .instr i) :
    ∃ r ∈ opcodeMap strict, op &&& r.1 = r.2 := by
  obtain ⟨rfl, hw⟩ := encode_of_decodeOp h
  obtain ⟨r, hr, hmatch⟩ := encode_matches_rowOf i strict hw
  exact ⟨r, List.mem_of_getElem? hr, hmatch⟩

/-- Settles O3: a row's match decides the verdict, so two rows that match are one row; and an instruction has a row. -/
theorem opcodeMapDecides : Obligations.OpcodeMapDecides := by
  refine fun strict op => ⟨fun n r => decodeOp_of_row, fun n m q r hq hr hmq hmr => ?_, fun hnone => ?_⟩
  · obtain ⟨i, hi, rfl⟩ := decodeOp_of_row hq hmq
    obtain ⟨j, hj, rfl⟩ := decodeOp_of_row hr hmr
    cases hi.symm.trans hj
    rfl
  · cases hd : decodeOp strict op with
    | invalid w => rw [eq_of_decodeOp_invalid hd]
    | instr i =>
      obtain ⟨r, hr, hmatch⟩ := row_of_decodeOp hd
      exact absurd hmatch (hnone r hr)

/-! The invalid opcodes (R98) -/

section
variable {strict : Bool} {op : Word}

theorem decodeFamily0_eq_invalid :
    decodeFamily0 strict op = .invalid op ↔
      ¬((opKk op = 0xE0 ∨ opKk op = 0xEE) ∧ (strict = true → opX op = 0)) := by
  unfold decodeFamily0
  split
  case h_3 hE0 hEE => exact iff_of_true rfl fun h => h.1.elim hE0 hEE
  all_goals simp [*, instrIf_eq_invalid]

/-- The low nibbles of family 8 that R94 does not name. -/
theorem mem_undefined8_of_ne : ∀ n : Nibble, n ≠ 0x0 → n ≠ 0x1 → n ≠ 0x2 → n ≠ 0x3 → n ≠ 0x4 → n ≠ 0x5 → n ≠ 0x6 →
    n ≠ 0x7 → n ≠ 0xE → n ∈ [0x8#4, 0x9#4, 0xA#4, 0xB#4, 0xC#4, 0xD#4, 0xF#4] := by
  decide

theorem decodeFamily8_eq_invalid :
    decodeFamily8 op = .invalid op ↔ opN op ∈ [0x8#4, 0x9#4, 0xA#4, 0xB#4, 0xC#4, 0xD#4, 0xF#4] := by
  unfold decodeFamily8
  split
  case h_10 => exact iff_of_true rfl (by apply mem_undefined8_of_ne <;> assumption)
  all_goals simp [*]

theorem decodeFamilyE_eq_invalid : decodeFamilyE op = .invalid op ↔ opKk op ∉ [0x9E#8, 0xA1#8] := by
  unfold decodeFamilyE
  split
  case h_3 => exact iff_of_true rfl (by simp_all)
  all_goals simp [*]

theorem decodeFamilyF_eq_invalid :
    decodeFamilyF op = .invalid op ↔
      opKk op ∉ [0x07#8, 0x0A#8, 0x15#8, 0x18#8, 0x1E#8, 0x29#8, 0x33#8, 0x55#8, 0x65#8] := by
  unfold decodeFamilyF
  split
  case h_10 => exact iff_of_true rfl (by simp_all)
  all_goals simp [*]

end

/-- Settles O4: the family fixes the branch of the decoder, and each branch answers Invalid where R98 says so. -/
theorem invalidOpcodesByFamily : Obligations.InvalidOpcodesByFamily := by
  intro strict op
  unfold decodeOp
  split
  case h_1 hf => simp [hf, decodeFamily0_eq_invalid]
  case h_6 hf | h_10 hf => simp [hf, instrIf_eq_invalid]
  case h_9 hf => simp [hf, decodeFamily8_eq_invalid]
  case h_15 hf => simp [hf, decodeFamilyE_eq_invalid]
  case h_16 =>
    have hf : opFamily op = 0xF := by apply nibble_eq_F_of_ne <;> assumption
    simp [hf, decodeFamilyF_eq_invalid]
  all_goals simp [*]

/-- Settles O5: the eleven words are read by the decoder. -/
theorem specWordsDecode : Obligations.SpecWordsDecode := by
  unfold Obligations.SpecWordsDecode
  decide

theorem decodeOp_of_decodeBytes {strict : Bool} {hi lo : Byte} {i : Instr} {rest : List Byte}
    (h : decodeBytes strict (hi :: lo :: rest) = .instr i rest) : decodeOp strict (opOfBytes hi lo) = .instr i := by
  simp only [decodeBytes] at h
  split at h
  case h_1 j hd => cases h; exact hd
  case h_2 => cases h

end Sys2Proof

/-! Executing what was decoded (R100, R101, R103, R107): one precise fault at most, and always an answer. -/

namespace Sys2Proof.Machine

/-- Settles O13: an instruction completes, which keeps the result Ok, or takes the fault of R284 and R285. -/
theorem instructionFaultsArePrecise : Obligations.InstructionFaultsArePrecise := by
  intro ins s t hok h hfault
  obtain hc | ⟨c, info, _, rfl⟩ := exec_cases h
  · exact absurd (hc.lastResult.trans hok) hfault
  · exact ⟨c, info, s.takeFault_faultedTo ..⟩

/-! Every step answers (R101, R310, R311) -/

/-- `o` is a next state, or the refusal of VF as an operand, which only VF_OPERAND = refuse brings (R191). -/
def State.Answers (s : State) (o : Host.Outcome State Fault Refusal) : Prop :=
  (∃ t, o = .next t) ∨ (o = .refused .vfOperand ∧ ∃ l, s.params.vfOperand = .refuse l)

theorem State.answers_next (s t : State) : s.Answers (.next t) := .inl ⟨t, rfl⟩

theorem State.withRange_answers (s : State) (ins : Instr) (n : Nat) (done : State) :
    s.Answers (s.withRange ins n done) := by
  obtain ⟨_, e⟩ | ⟨k, _, e⟩ := s.withRange_cases ins n done <;> exact .inl ⟨_, e⟩

theorem State.skipOnKey_answers (s : State) (ins : Instr) (x : Nibble) (w : Bool) : s.Answers (s.skipOnKey ins x w) := by
  obtain ⟨k, _, e⟩ | ⟨_, _, e⟩ := s.skipOnKey_cases ins x w <;> exact .inl ⟨_, e⟩

theorem State.flagThenValue_answers (s : State) (x : Nibble) (u : RefuseList → Bool) (f : State → Bool)
    (r : State → Byte) : s.Answers (s.flagThenValue x u f r) := by
  obtain ⟨b, e⟩ | ⟨l, hl, _, e⟩ := s.flagThenValue_cases x u f r
  · exact .inl ⟨_, e⟩
  · exact .inr ⟨e, l, hl⟩

theorem exec_answers (ins : Instr) (s : State) : s.Answers (exec ins s) := by
  cases ins <;> simp only [exec]
  case ret x =>
    unfold execRet
    split <;> apply State.answers_next
  case call nnn =>
    unfold execCall
    split <;> apply State.answers_next
  case ldVxK x =>
    unfold execLdVxK
    split <;> apply State.answers_next
  case drw | ldB | storeRegs | loadRegs => apply State.withRange_answers
  case skp | sknp => apply State.skipOnKey_answers
  case addReg | sub | shr | subn | shl => apply State.flagThenValue_answers
  all_goals apply State.answers_next

theorem State.execFetched_answers (s : State) : s.Answers s.execFetched := by
  obtain ⟨a, _, e⟩ | ⟨op, w, _, _, e⟩ | ⟨op, ins, _, _, e⟩ := s.execFetched_cases
  · exact .inl ⟨_, e⟩
  · exact .inl ⟨_, e⟩
  · exact e ▸ exec_answers ins s

theorem State.Answers.thenTail {s : State} {o : Host.Outcome State Fault Refusal} (b : Bool) (h : s.Answers o) :
    s.Answers (thenTail b o) := by
  obtain ⟨t, rfl⟩ | ⟨rfl, hl⟩ := h
  · exact s.answers_next _
  · exact .inr ⟨rfl, hl⟩

theorem State.cycle_answers (s : State) (b : Bool) : s.Answers (s.cycle b) := by
  unfold State.cycle
  cases s.runState with
  | halted => exact s.answers_next _
  | running => exact s.startCycle.execFetched_answers.thenTail b

theorem step_answers (s : State) : s.Answers (step s) := by
  unfold step State.hostStep
  cases s.nextAction with
  | cycle b => exact s.popScript.cycle_answers b
  | _ => exact s.answers_next _

/-- Settles O59: the flag-setting instructions alone can refuse, and only under VF_OPERAND = refuse. -/
theorem stepAlwaysAnswers : Obligations.StepAlwaysAnswers := by
  intro s
  obtain hnext | ⟨hrefused, l, hl⟩ := step_answers s
  · exact ⟨fun _ => hnext, .inl hnext⟩
  · exact ⟨fun hne => absurd hl (hne l), .inr hrefused⟩

/-! A step of a running core (R100, R103, R311) -/

theorem State.execFetched_of_decodes {s : State} {op : Word} {i : Instr} (hf : s.fetch = .opcode op)
    (hd : decodeOp s.params.decodeStrict op = .instr i) : s.execFetched = exec i s := by
  simp only [State.execFetched, hf, hd]

/-- Settles O8: the fetch reads the two bytes, and the state that runs is the one whose script has lost its action. -/
theorem stepRunsDecodedInstruction : Obligations.StepRunsDecodedInstruction := by
  intro s b i hr ha hrange hbytes
  have hfetch := State.fetch_of_inRange (s := s.popScript.startCycle) hrange
  have hexec := State.execFetched_of_decodes hfetch (decodeOp_of_decodeBytes hbytes)
  rw [step_running hr ha, hexec]
  rfl

end Sys2Proof.Machine

/-! The display instructions (R130 to R134): what CLS leaves, and what a DRW that does not fault does to each cell and to
VF, said in the column and row of the cell. -/

namespace Sys2Proof.Machine

/-- Settles O14: CLS answers with the cleared framebuffer, and memory is no part of what it writes. -/
theorem clsClearsFramebuffer : Obligations.ClsClearsFramebuffer :=
  fun _ _ => ⟨_, rfl, fun p _ => Fb.cell_clear p, fun _ => rfl, rfl⟩

/-! One draw -/

/-- Each of the 2048 cells is that of one column and one row (R34). -/
theorem exists_column_row {p : Nat} (hp : p < 2048) : ∃ X < 64, ∃ Y < 32, p = Y * 64 + X :=
  ⟨p % 64, by omega, p / 64, by omega, by omega⟩

@[simp] theorem flagByte_eq_one_iff {f : Bool} : flagByte f = 1 ↔ f = true := by cases f <;> decide

@[simp] theorem flagByte_eq_zero_iff {f : Bool} : flagByte f = 0 ↔ f = false := by cases f <;> decide

/-- A DRW whose addresses are in range draws (R131). -/
theorem exec_drw_of_rangeOk {s : State} (x y : Nibble) {n : Nibble} (hr : s.rangeOk n.toNat) :
    exec (.drw x y n) s = .next (s.composited (s.drawSprite x y n)) :=
  State.withRange_ok (.drw x y n) _ hr

/-- A draw changes the cells that a set bit of the sprite lands on, and no other cell (R131, R133). -/
theorem State.cell_drawSprite_ne_iff (s : State) (x y n : Nibble) {X Y : Nat} (hX : X < 64) (hY : Y < 32) :
    Fb.cell (s.drawSprite x y n).fb (Y * 64 + X) ≠ s.cell (Y * 64 + X) ↔ s.spriteCovers x y n X Y := by
  rw [s.spriteCovers_iff x y n hX hY, State.drawSprite, State.cell,
    cell_sprite _ _ _ _ (s.readRun_sprite_length n)]
  cases Fb.cell s.fb (Y * 64 + X) <;> simp

/-- A draw collides when a set bit of the sprite lands on a cell that held 1 (R131, R133). -/
theorem State.drawSprite_collide_iff (s : State) (x y n : Nibble) :
    (s.drawSprite x y n).collide = true ↔
      ∃ X < 64, ∃ Y < 32, s.spriteCovers x y n X Y ∧ s.cell (Y * 64 + X) = true := by
  rw [State.drawSprite, collide_sprite _ _ _ _ (s.readRun_sprite_length n), Bool.false_or, List.any_eq_true]
  constructor
  · rintro ⟨p, hp, hcell⟩
    obtain ⟨X, hX, Y, hY, rfl⟩ := exists_column_row (spriteCells_lt hp)
    exact ⟨X, hX, Y, hY, (s.spriteCovers_iff x y n hX hY).mpr hp, hcell⟩
  · rintro ⟨X, hX, Y, hY, hcov, hcell⟩
    exact ⟨_, (s.spriteCovers_iff x y n hX hY).mp hcov, hcell⟩

/-- A draw writes no register but VF. -/
theorem State.getV_composited_of_ne (s : State) (d : Drawing) {z : Nibble} (hz : z ≠ vf) :
    (s.composited d).getV z = s.getV z :=
  State.getV_setV_of_ne _ _ hz

/-- Settles O15: each cell and the collision are those of the compositer, and the collision is what VF holds. -/
theorem drwComposites : Obligations.DrwComposites := by
  intro s x y n hr
  have hexec := exec_drw_of_rangeOk x y hr
  have hvf := getV_vf_of_execDrw hr hexec
  refine ⟨_, hexec, fun X hX Y hY => s.cell_drawSprite_ne_iff x y n hX hY, fun hcol => ?_, fun hcol => ?_,
    fun z hz => s.getV_composited_of_ne _ hz, fun _ => rfl, rfl⟩
  · rw [hvf, flagByte_eq_one_iff, s.drawSprite_collide_iff]
    exact hcol
  · rw [hvf, flagByte_eq_zero_iff, Bool.eq_false_iff, Ne, s.drawSprite_collide_iff]
    exact hcol

/-! The same sprite drawn again -/

/-- What covers a cell is fixed by the two coordinates and by the sprite's bytes. -/
theorem State.spriteCovers_congr {s u : State} {x y x' y' n : Nibble} (hx : u.getV x' = s.getV x)
    (hy : u.getV y' = s.getV y)
    (hm : ∀ r < n.toNat, u.memByte (memIndex (u.i.toNat + r)) = s.memByte (memIndex (s.i.toNat + r))) (X Y : Nat) :
    u.spriteCovers x' y' n X Y ↔ s.spriteCovers x y n X Y := by
  simp only [State.spriteCovers, hx, hy]
  refine exists_congr fun r => and_congr_right fun hr => ?_
  rw [hm r hr]

/-- A cell that changes again exactly when it has changed is back where it was. -/
theorem cell_eq_of_changed_twice {a b c : Bool} (h : c ≠ b ↔ b ≠ a) : c = a := by
  by_cases hba : b = a
  · exact (not_not.mp fun hcb => h.mp hcb hba).trans hba
  · rw [Bool.eq_not.mpr (h.mpr hba), Bool.eq_not.mpr hba, Bool.not_not]

/-- Settles O16: both draws flip the same cells, so a cell that the second draw flips holds 1 before it exactly when it
held 0 before the first. -/
theorem drawTwiceRestores : Obligations.DrawTwiceRestores := by
  intro s t u x y x' y' n hs hu ht hfb hx hy hm
  cases (exec_drw_of_rangeOk x y hs).symm.trans ht
  have hcov := State.spriteCovers_congr hx hy hm
  have hfirst {X Y : Nat} (hX : X < 64) (hY : Y < 32) :
      u.cell (Y * 64 + X) ≠ s.cell (Y * 64 + X) ↔ s.spriteCovers x y n X Y := by
    rw [State.cell, hfb]
    exact s.cell_drawSprite_ne_iff x y n hX hY
  have hsecond {X Y : Nat} (hX : X < 64) (hY : Y < 32) :
      Fb.cell (u.drawSprite x' y' n).fb (Y * 64 + X) ≠ u.cell (Y * 64 + X) ↔ s.spriteCovers x y n X Y :=
    (u.cell_drawSprite_ne_iff x' y' n hX hY).trans (hcov X Y)
  have hexec := exec_drw_of_rangeOk x' y' hu
  have hvf := getV_vf_of_execDrw hu hexec
  refine ⟨_, hexec, Fb.ext_cell fun p hp => ?_, ?_, hvf ▸ flagByte_eq_zero_or_one _⟩
  · obtain ⟨X, hX, Y, hY, rfl⟩ := exists_column_row hp
    exact cell_eq_of_changed_twice ((hsecond hX hY).trans (hfirst hX hY).symm)
  · rw [hvf, flagByte_eq_one_iff, u.drawSprite_collide_iff]
    refine exists_congr fun X => and_congr_right fun hX => exists_congr fun Y => and_congr_right fun hY => ?_
    rw [hcov X Y]
    refine and_congr_right fun hc => ?_
    rw [Bool.eq_not.mpr ((hfirst hX hY).mpr hc), Bool.not_eq_true']

end Sys2Proof.Machine

/-! Control flow (R104, R105, R150 to R158): the stack's push and pop as CALL and RET use them, the jumps and the register
skips. -/

namespace Sys2Proof.Machine

/-! The stack below its capacity (R29, R30) -/

/-- SP is at most 32 (R30), so a stack that is not full has an entry free. -/
theorem State.sp_lt_of_ne {s : State} (h : s.sp.val ≠ 32) : s.sp.val < 32 :=
  Nat.lt_of_le_of_ne (Nat.le_of_lt_succ s.sp.isLt) h

theorem State.stackAt_push_same {s : State} (w : Word) (h : s.sp.val < 32) : (s.push w).stackAt s.sp.val = w := by
  simp [State.stackAt, (s.push_of_lt w h).1]

/-- A push writes the stack and SP only. -/
theorem State.push_frame (s : State) (w : Word) :
    s.push w = { s with stack := (s.push w).stack, sp := (s.push w).sp } := by
  unfold State.push
  split <;> rfl

/-! RET and CALL, one equation per case of SP (R150, R152) -/

theorem exec_ret_of_empty (x : Nibble) {s : State} (h : s.sp.val = 0) :
    exec (.ret x) s = .next (s.takeFault .stackUnderflow (encode (.ret x)) 0) := if_pos h

theorem exec_ret_of_nonempty (x : Nibble) {s : State} (h : s.sp.val ≠ 0) :
    exec (.ret x) s = .next (s.pop.setPc (s.stackAt (s.sp.val - 1))) := if_neg h

theorem exec_call_of_full (nnn : Addr) {s : State} (h : s.sp.val = 32) :
    exec (.call nnn) s = .next (s.takeFault .stackOverflow (encode (.call nnn)) 0) := if_pos h

theorem exec_call_of_not_full (nnn : Addr) {s : State} (h : s.sp.val ≠ 32) :
    exec (.call nnn) s = .next ((s.push s.pcNext).setPc (zext16 nnn)) := if_neg h

/-- Settles O19: the pop moves SP and PC and leaves memory, and an empty stack takes the precise fault. -/
theorem retPopsOrUnderflows : Obligations.RetPopsOrUnderflows := fun s x =>
  ⟨fun h => ⟨_, exec_ret_of_nonempty x h, rfl, rfl, fun _ => rfl, rfl⟩,
    fun h => ⟨_, exec_ret_of_empty x h, s.takeFault_faultedTo ..⟩⟩

/-- Settles O20: the push below the capacity, then the jump; a full stack takes the precise fault. -/
theorem callPushesOrOverflows : Obligations.CallPushesOrOverflows := by
  refine fun s nnn => ⟨fun h => ?_, fun h => ⟨_, exec_call_of_full nnn h, s.takeFault_faultedTo ..⟩⟩
  have hlt := State.sp_lt_of_ne h
  have hmem (a : Nat) : (s.push s.pcNext).memByte a = s.memByte a :=
    State.memByte_congr (s.push_mem _) (s.push_params _) a
  exact ⟨_, exec_call_of_not_full nnn h, (s.push_of_lt s.pcNext hlt).2, State.stackAt_push_same s.pcNext hlt,
    fun j hj => s.stackAt_push_of_ne s.pcNext hj, zext16_toNat nnn, hmem,
    congrArg (·.setPc (zext16 nnn)) (s.push_frame s.pcNext)⟩

/-- Settles O21: the RET finds SP one above the call's, and below it the entry that the call pushed. -/
theorem callThenReturnLandsAfterCall : Obligations.CallThenReturnLandsAfterCall := by
  intro s t u nnn x h hcall hstack hsp
  cases (exec_call_of_not_full nnn h).symm.trans hcall
  have hlt := State.sp_lt_of_ne h
  have husp : u.sp.val = s.sp.val + 1 := (congrArg Fin.val hsp).trans (s.push_of_lt s.pcNext hlt).2
  have hpred : u.sp.val - 1 = s.sp.val := by omega
  refine ⟨_, exec_ret_of_nonempty x (by omega), ?_, Fin.ext hpred⟩
  calc
    u.stackAt (u.sp.val - 1) = (s.push s.pcNext).stackAt s.sp.val := by
      rw [hpred]; exact State.stackAt_congr hstack _
    _ = s.pcNext := State.stackAt_push_same s.pcNext hlt

/-! The jumps (R151, R157) -/

/-- The sum of a byte and a 12-bit address needs no wrap: it is at most 0x10FE (R157). -/
theorem zeroExtend_add_zext16_toNat (b : Byte) (nnn : Addr) :
    (b.zeroExtend 16 + zext16 nnn).toNat = b.toNat + nnn.toNat := by
  have hb := b.isLt
  have hnnn := nnn.isLt
  rw [BitVec.toNat_add, zext16_toNat, BitVec.toNat_setWidth]
  omega

/-- Settles O22: both are one write of PC, and both targets fit in 16 bits. -/
theorem jumpsSetPc : Obligations.JumpsSetPc := fun s nnn =>
  ⟨⟨_, rfl, zext16_toNat nnn, rfl, fun _ => rfl⟩,
    ⟨_, rfl, zeroExtend_add_zext16_toNat (s.getV 0) nnn, rfl, fun _ => rfl⟩⟩

/-! The skips (R105) -/

/-- A skip on a test that decides `p` writes PC, and nothing else. -/
theorem State.skipIf_writesPc (s : State) {c : Bool} {p : Prop} [Decidable p] (h : c = true ↔ p) :
    s.WritesPc (s.skipIf c) (if p then s.pc + 4 else s.pc + 2) := by
  by_cases hp : p
  · rw [if_pos hp, h.mpr hp]; rfl
  · rw [if_neg hp, Bool.eq_false_iff.mpr (mt h.mp hp)]; rfl

/-- Settles O23: each is the skip on its own comparison. -/
theorem registerSkipsCompare : Obligations.RegisterSkipsCompare := fun s _ _ _ _ =>
  ⟨⟨_, rfl, s.skipIf_writesPc beq_iff_eq⟩, ⟨_, rfl, s.skipIf_writesPc bne_iff_ne⟩,
    ⟨_, rfl, s.skipIf_writesPc beq_iff_eq⟩, ⟨_, rfl, s.skipIf_writesPc bne_iff_ne⟩⟩

end Sys2Proof.Machine

/-! Register load, arithmetic and logic (R180 to R195): the one register write of the instructions without a flag, and the
flag-then-value write of 8xy4 to 8xyE under each value of VF_OPERAND (R106, R191). -/

namespace Sys2Proof.Machine

/-! One register written (R104) -/

theorem State.setV_writesReg (s : State) (x : Nibble) (b : Byte) : s.WritesReg (s.setV x b).advance x b :=
  ⟨s.getV_setV_same x b, fun _ hz => s.getV_setV_of_ne b hz, fun _ => rfl, rfl⟩

/-- The value written, read back from the register that holds it. -/
theorem State.WritesReg.readBack {s t : State} {x : Nibble} {b : Byte} (h : s.WritesReg t x b) :
    s.WritesReg t x (t.getV x) := by
  obtain ⟨_, hframe⟩ := h
  exact ⟨rfl, hframe⟩

/-- A value written to a register is there bit by bit. -/
theorem State.getLsbD_getV_setV (s : State) (x : Nibble) (b : Byte) (j : Nat) :
    ((s.setV x b).advance.getV x).getLsbD j = b.getLsbD j := by
  rw [State.getV_advance, State.getV_setV_same]

/-- Settles O25: each is one register write, and the logic is that of the bit vectors. -/
theorem loadAndLogicResults : Obligations.LoadAndLogicResults := fun s x _ _ =>
  ⟨⟨_, rfl, s.setV_writesReg x _⟩, ⟨_, rfl, s.setV_writesReg x _⟩,
    ⟨_, rfl, (s.setV_writesReg x _).readBack, fun j _ => (s.getLsbD_getV_setV x _ j).trans BitVec.getLsbD_or⟩,
    ⟨_, rfl, (s.setV_writesReg x _).readBack, fun j _ => (s.getLsbD_getV_setV x _ j).trans BitVec.getLsbD_and⟩,
    ⟨_, rfl, (s.setV_writesReg x _).readBack, fun j _ => (s.getLsbD_getV_setV x _ j).trans BitVec.getLsbD_xor⟩⟩

/-- Settles O26: one register write of the sum. -/
theorem addImmediateWraps : Obligations.AddImmediateWraps := by
  intro s x kk
  refine ⟨_, rfl, ?_, (s.setV_writesReg x (add8 (s.getV x) kk)).readBack⟩
  rw [State.getV_advance, State.getV_setV_same, add8_toNat]

/-- Settles O33: the masked draw is one register write, after the draw is counted. -/
theorem rndMasksADraw : Obligations.RndMasksADraw := fun s x _ =>
  ⟨_, rfl, fun j _ => (s.drawn.getLsbD_getV_setV x _ j).trans BitVec.getLsbD_and,
    fun _ hz => s.drawn.getV_setV_of_ne _ hz, fun _ => rfl, rfl⟩

/-! The flags and the difference as the rules say them (R186 to R190) -/

theorem flagByte_carryOut (a b : Byte) : flagByte (carryOut a b) = if a.toNat + b.toNat > 255 then 1 else 0 := by
  simp [flagByte, carryOut]

theorem flagByte_notBorrow (a b : Byte) : flagByte (notBorrow a b) = if a.toNat ≥ b.toNat then 1 else 0 := by
  simp [flagByte, notBorrow]

/-- Bit 0 is the remainder of halving (R188). -/
theorem flagByte_lowBit (a : Byte) : flagByte (lowBit a) = BitVec.ofNat 8 (a.toNat % 2) := by
  rw [flagByte, lowBit, BitVec.getLsbD, Nat.testBit_zero]
  obtain h | h := Nat.mod_two_eq_zero_or_one a.toNat <;> simp [h]

/-- Bit 7, the highest of a byte, is its quotient by 128 (R190). -/
theorem flagByte_highBit (a : Byte) : flagByte (highBit a) = BitVec.ofNat 8 (a.toNat / 128) := by
  have hbit : highBit a = decide (128 ≤ a.toNat) := by
    rw [highBit, BitVec.getLsbD, Nat.testBit_eq_decide_div_mod_eq]
    have := a.isLt
    exact decide_eq_decide.mpr (by omega)
  by_cases h : 128 ≤ a.toNat
  · have hq : a.toNat / 128 = 1 := by omega
    simp [hbit, flagByte, h, hq]
  · have hq : a.toNat / 128 = 0 := by omega
    simp [hbit, flagByte, h, hq]

/-- The difference is what gives `a` when `b` is added to it again (R187, R189). -/
theorem sub8_add_toNat (a b : Byte) : ((sub8 a b).toNat + b.toNat) % 256 = a.toNat := by
  have ha := a.isLt
  have hb := b.isLt
  rw [sub8_toNat]
  split <;> omega

/-! The flag-then-value write (R106, R191) -/

theorem exec_addReg (x y : Nibble) (s : State) : exec (.addReg x y) s =
    s.flagThenValue x (refusesPair x y) (fun t => carryOut (t.getV x) (t.getV y))
      (fun t => add8 (t.getV x) (t.getV y)) := rfl

theorem exec_sub (x y : Nibble) (s : State) : exec (.sub x y) s =
    s.flagThenValue x (refusesPair x y) (fun t => notBorrow (t.getV x) (t.getV y))
      (fun t => sub8 (t.getV x) (t.getV y)) := rfl

theorem exec_subn (x y : Nibble) (s : State) : exec (.subn x y) s =
    s.flagThenValue x (refusesPair x y) (fun t => notBorrow (t.getV y) (t.getV x))
      (fun t => sub8 (t.getV y) (t.getV x)) := rfl

theorem exec_shr (x y : Nibble) (s : State) : exec (.shr x y) s =
    s.flagThenValue x (refusesShift x) (fun t => lowBit (t.getV x)) (fun t => shr8 (t.getV x)) := rfl

theorem exec_shl (x y : Nibble) (s : State) : exec (.shl x y) s =
    s.flagThenValue x (refusesShift x) (fun t => highBit (t.getV x)) (fun t => shl8 (t.getV x)) := rfl

/-- From `s`, the outcome `o` is a next state with the flag `g` and, written after it, the value `b` in register x. -/
def State.AnswersFlagAndReg (s : State) (o : Host.Outcome State Fault Refusal) (x : Nibble) (g b : Byte) : Prop :=
  ∃ t, o = .next t ∧ t.getV x = b ∧ s.WritesFlagAndReg t x g (t.getV x)

/-- VF is written first, so that with x = F the value remains. -/
theorem State.setV_answersFlagAndReg (s : State) (x : Nibble) (g b : Byte) :
    s.AnswersFlagAndReg (.next ((s.setV vf g).setV x b).advance) x g b := by
  refine ⟨_, rfl, State.getV_setV_same _ x b, rfl, fun hx => ?_, fun z hzx hzf => ?_, fun _ => rfl, rfl⟩
  · rw [State.getV_advance, State.getV_setV_of_ne _ b hx.symm, State.getV_setV_same]
  · rw [State.getV_advance, State.getV_setV_of_ne _ b hzx, State.getV_setV_of_ne _ g hzf]

/-- Where no list names the form and the result does not read VF, or under `latched`, it runs as the rules are written. -/
theorem State.flagThenValue_asWritten {s : State} {u : RefuseList → Bool} {r : State → Byte} (x : Nibble)
    (f : State → Bool)
    (h : s.params.vfOperand = .latched ∨ ((∀ l, u l = false) ∧ ∀ g, r (s.setV vf g) = r s)) :
    s.AnswersFlagAndReg (s.flagThenValue x u f r) x (flagByte (f s)) (r s) := by
  suffices he : s.flagThenValue x u f r = .next ((s.setV vf (flagByte (f s))).setV x (r s)).advance by
    rw [he]
    exact s.setV_answersFlagAndReg x _ _
  obtain hl | ⟨hu, hr⟩ := h
  · exact State.flagThenValue_latched x u f r hl
  · cases hv : s.params.vfOperand with
    | latched => exact State.flagThenValue_latched x u f r hv
    | sequential => rw [State.flagThenValue_sequential x u f r hv, hr]
    | refuse l => exact State.flagThenValue_unlisted x u f r hv (hu l)

/-- Under `sequential` the result is computed after the flag write. -/
theorem exec_readsAfterFlag {i : Instr} {s : State} {x : Nibble} {u : RefuseList → Bool} {f : State → Bool}
    {r : State → Byte} (hexec : exec i s = s.flagThenValue x u f r) (h : s.params.vfOperand = .sequential) :
    s.AnswersFlagAndReg (exec i s) x (flagByte (f s)) (r (s.setV vf (flagByte (f s)))) := by
  rw [hexec, State.flagThenValue_sequential x u f r h]
  exact s.setV_answersFlagAndReg x _ _

/-! The forms that the lists name (R191, D7) -/

theorem refusesPair_eq_false {x y : Nibble} {l : RefuseList} (hy : y ≠ vf) (hx : l = .anyOperand → x ≠ vf) :
    refusesPair x y l = false := by
  cases l with
  | onlyY => simpa [refusesPair] using hy
  | anyOperand => simpa [refusesPair] using ⟨hx rfl, hy⟩

theorem refusesShift_eq_false {x : Nibble} {l : RefuseList} (hx : l = .anyOperand → x ≠ vf) :
    refusesShift x l = false := by
  cases l with
  | onlyY => rfl
  | anyOperand => simpa [refusesShift] using hx rfl

/-- ADD, SUB and SUBN with VF no operand, or under `latched`: flag and result from the registers as they were. -/
theorem State.pair_asWritten {s : State} {x y : Nibble} (f : Byte → Byte → Bool) (r : Byte → Byte → Byte)
    (h : s.params.vfOperand = .latched ∨ (x ≠ 0xF ∧ y ≠ 0xF)) :
    s.AnswersFlagAndReg (s.flagThenValue x (refusesPair x y) (fun t => f (t.getV x) (t.getV y))
      (fun t => r (t.getV x) (t.getV y))) x (flagByte (f (s.getV x) (s.getV y))) (r (s.getV x) (s.getV y)) := by
  refine State.flagThenValue_asWritten x _ (h.imp_right fun ⟨hx, hy⟩ => ⟨fun l => refusesPair_eq_false hy fun _ => hx, ?_⟩)
  intro g
  rw [s.getV_setV_of_ne g hx, s.getV_setV_of_ne g hy]

/-- SHR and SHL likewise: y is no operand. -/
theorem State.shift_asWritten {s : State} {x : Nibble} (f : Byte → Bool) (r : Byte → Byte)
    (h : s.params.vfOperand = .latched ∨ x ≠ 0xF) :
    s.AnswersFlagAndReg (s.flagThenValue x (refusesShift x) (fun t => f (t.getV x)) (fun t => r (t.getV x))) x
      (flagByte (f (s.getV x))) (r (s.getV x)) := by
  refine State.flagThenValue_asWritten x _ (h.imp_right fun hx => ⟨fun l => refusesShift_eq_false fun _ => hx, ?_⟩)
  intro g
  rw [s.getV_setV_of_ne g hx]

/-- Settles O27: the carry is written first, and the sum remains where both go to VF. -/
theorem addRegistersCarry : Obligations.AddRegistersCarry := by
  intro s x y h
  obtain ⟨t, ht, hv, hw⟩ := State.pair_asWritten carryOut add8 h
  exact ⟨t, ht, hv ▸ add8_toNat .., flagByte_carryOut .. ▸ hw⟩

/-- Settles O28: SUBN is SUB with its operands exchanged. -/
theorem subtractionsNotBorrow : Obligations.SubtractionsNotBorrow := by
  refine fun s x y h => ⟨?_, ?_⟩
  · obtain ⟨t, ht, hv, hw⟩ := State.pair_asWritten notBorrow sub8 h
    exact ⟨t, ht, hv ▸ sub8_add_toNat .., flagByte_notBorrow .. ▸ hw⟩
  · obtain ⟨t, ht, hv, hw⟩ := State.pair_asWritten (fun a b => notBorrow b a) (fun a b => sub8 b a) h
    exact ⟨t, ht, hv ▸ sub8_add_toNat .., flagByte_notBorrow .. ▸ hw⟩

/-- Settles O29: neither shift reads y. -/
theorem shiftsPutBitOut : Obligations.ShiftsPutBitOut := by
  refine fun s x y h => ⟨?_, ?_⟩
  · obtain ⟨t, ht, hv, hw⟩ := State.shift_asWritten lowBit shr8 h
    exact ⟨t, ht, hv ▸ shr8_toNat _, flagByte_lowBit _ ▸ hw⟩
  · obtain ⟨t, ht, hv, hw⟩ := State.shift_asWritten highBit shl8 h
    exact ⟨t, ht, hv ▸ shl8_toNat _, flagByte_highBit _ ▸ hw⟩

/-- Settles O30: a register read after the flag write is the flag for VF, and what it was for any other. -/
theorem sequentialReadsAfterFlag : Obligations.SequentialReadsAfterFlag := by
  refine fun s x y h => ⟨?_, ?_, ?_, ?_, ?_⟩
  · obtain ⟨t, ht, hv, hw⟩ := exec_readsAfterFlag (exec_addReg x y s) h
    refine ⟨t, ht, _, flagByte_carryOut .., hw, ?_⟩
    rw [hv, add8_toNat, State.getV_setV, State.getV_setV]
  · obtain ⟨t, ht, hv, hw⟩ := exec_readsAfterFlag (exec_sub x y s) h
    refine ⟨t, ht, _, flagByte_notBorrow .., hw, ?_⟩
    rw [hv, ← State.getV_setV, ← State.getV_setV, sub8_add_toNat]
  · obtain ⟨t, ht, hv, hw⟩ := exec_readsAfterFlag (exec_subn x y s) h
    refine ⟨t, ht, _, flagByte_notBorrow .., hw, ?_⟩
    rw [hv, ← State.getV_setV, ← State.getV_setV, sub8_add_toNat]
  · obtain ⟨t, ht, hv, hw⟩ := exec_readsAfterFlag (exec_shr x y s) h
    refine ⟨t, ht, _, flagByte_lowBit _, hw, ?_⟩
    rw [hv, shr8_toNat, State.getV_setV]
  · obtain ⟨t, ht, hv, hw⟩ := exec_readsAfterFlag (exec_shl x y s) h
    refine ⟨t, ht, _, flagByte_highBit _, hw, ?_⟩
    rw [hv, shl8_toNat, State.getV_setV]

/-! What is refused (R191, D7) -/

/-- The forms that a list names, over all instructions. -/
def refusedForm (l : RefuseList) : Instr → Bool
  | .addReg x y | .sub x y | .subn x y => refusesPair x y l
  | .shr x _ | .shl x _ => refusesShift x l
  | _ => false

theorem State.withRange_ne_refused (s : State) (i : Instr) (n : Nat) (done : State) (e : Refusal) :
    s.withRange i n done ≠ .refused e := by
  obtain ⟨_, h⟩ | ⟨_, _, h⟩ := s.withRange_cases i n done <;> simp [h]

theorem State.skipOnKey_ne_refused (s : State) (i : Instr) (x : Nibble) (w : Bool) (e : Refusal) :
    s.skipOnKey i x w ≠ .refused e := by
  obtain ⟨_, _, h⟩ | ⟨_, _, h⟩ := s.skipOnKey_cases i x w <;> simp [h]

theorem State.flagThenValue_refused {s : State} {x : Nibble} {u : RefuseList → Bool} {f : State → Bool}
    {r : State → Byte} {e : Refusal} (h : s.flagThenValue x u f r = .refused e) :
    e = .vfOperand ∧ ∃ l, s.params.vfOperand = .refuse l ∧ u l = true := by
  obtain ⟨b, hn⟩ | ⟨l, hl, hu, hr⟩ := s.flagThenValue_cases x u f r
  · cases hn.symm.trans h
  · cases hr.symm.trans h
    exact ⟨rfl, l, hl, hu⟩

/-- An instruction that is refused is refused for VF as an operand, and is a form that the list in force names. -/
theorem exec_refused {i : Instr} {s : State} {e : Refusal} (h : exec i s = .refused e) :
    e = .vfOperand ∧ ∃ l, s.params.vfOperand = .refuse l ∧ refusedForm l i = true := by
  cases i <;> simp only [exec] at h
  case addReg | sub | shr | subn | shl => exact State.flagThenValue_refused h
  case drw | ldB | storeRegs | loadRegs => exact absurd h (s.withRange_ne_refused _ _ _ _)
  case skp | sknp => exact absurd h (s.skipOnKey_ne_refused _ _ _ _)
  case ret x =>
    unfold execRet at h
    split at h <;> cases h
  case call nnn =>
    unfold execCall at h
    split at h <;> cases h
  case ldVxK x =>
    unfold execLdVxK at h
    split at h <;> cases h
  all_goals cases h

/-- A form that the list in force names is refused. -/
theorem exec_of_refusedForm {i : Instr} {s : State} {l : RefuseList} (hl : s.params.vfOperand = .refuse l)
    (h : refusedForm l i = true) : exec i s = .refused .vfOperand := by
  cases i with
  | addReg x y => exact (exec_addReg x y s).trans (State.flagThenValue_listed _ _ _ _ hl h)
  | sub x y => exact (exec_sub x y s).trans (State.flagThenValue_listed _ _ _ _ hl h)
  | subn x y => exact (exec_subn x y s).trans (State.flagThenValue_listed _ _ _ _ hl h)
  | shr x y => exact (exec_shr x y s).trans (State.flagThenValue_listed _ _ _ _ hl h)
  | shl x y => exact (exec_shl x y s).trans (State.flagThenValue_listed _ _ _ _ hl h)
  | _ => cases h

/-- The forms on R191's list. -/
theorem refusedForm_anyOperand {i : Instr} (h : refusedForm .anyOperand i = true) :
    ∃ z w : Nibble, (z = 0xF ∨ w = 0xF) ∧
      (i = .addReg z w ∨ i = .sub z w ∨ i = .subn z w ∨ (z = 0xF ∧ (i = .shr z w ∨ i = .shl z w))) := by
  cases i with
  | addReg z w | sub z w | subn z w => exact ⟨z, w, by simpa [refusedForm, refusesPair] using h, by simp⟩
  | shr z w | shl z w =>
    have hz : z = 0xF := by simpa [refusedForm, refusesShift] using h
    exact ⟨z, w, .inl hz, by simp [hz]⟩
  | _ => cases h

/-- The forms on D7's list. -/
theorem refusedForm_onlyY {i : Instr} (h : refusedForm .onlyY i = true) :
    ∃ z : Nibble, i = .addReg z 0xF ∨ i = .sub z 0xF ∨ i = .subn z 0xF := by
  cases i with
  | addReg z w | sub z w | subn z w =>
    have hw : w = 0xF := by simpa [refusedForm, refusesPair] using h
    exact ⟨z, by simp [hw]⟩
  | _ => cases h

/-- Settles O31: the list in force names these forms, and what is refused is on it. -/
theorem refusePolicyRefusesVfOperands : Obligations.RefusePolicyRefusesVfOperands := by
  refine fun s x y => ⟨fun hl => ⟨fun hxy => ?_, fun hx => ?_, fun i e h => ?_⟩, fun hl => ⟨fun hy => ?_, fun i e h => ?_⟩⟩
  · have hu : refusesPair x y .anyOperand = true := by simpa [refusesPair] using hxy
    exact ⟨exec_of_refusedForm hl hu, exec_of_refusedForm hl hu, exec_of_refusedForm hl hu⟩
  · have hu : refusesShift x .anyOperand = true := by simpa [refusesShift] using hx
    exact ⟨exec_of_refusedForm hl hu, exec_of_refusedForm hl hu⟩
  · obtain ⟨he, l, hl', hform⟩ := exec_refused h
    cases hl.symm.trans hl'
    exact ⟨he, refusedForm_anyOperand hform⟩
  · have hu : refusesPair x y .onlyY = true := by simpa [refusesPair] using hy
    exact ⟨exec_of_refusedForm hl hu, exec_of_refusedForm hl hu, exec_of_refusedForm hl hu⟩
  · obtain ⟨he, l, hl', hform⟩ := exec_refused h
    cases hl.symm.trans hl'
    exact ⟨he, refusedForm_onlyY hform⟩

/-- The same state under VF_OPERAND = latched. -/
def State.latched (s : State) : State := { s with params := { s.params with vfOperand := .latched } }

/-- A flag-setting form that the list in force does not name runs as under `latched`: what it computes reads registers
only, and no parameter. -/
theorem State.runsAsLatched_of_unlisted {s : State} {l : RefuseList} {i : Instr} {x : Nibble} {u : RefuseList → Bool}
    {f : State → Bool} {r : State → Byte} (hexec : ∀ t, exec i t = t.flagThenValue x u f r)
    (hf : f s.latched = f s) (hr : r s.latched = r s)
    (hl : s.params.vfOperand = .refuse l) (hu : u l = false) : s.RunsAsLatched i := by
  refine ⟨((s.latched.setV vf (flagByte (f s))).setV x (r s)).advance, ?_, ?_⟩
  · calc
      exec i s.latched = s.latched.flagThenValue x u f r := hexec _
      _ = .next ((s.latched.setV vf (flagByte (f s.latched))).setV x (r s.latched)).advance :=
        State.flagThenValue_latched x u f r rfl
      _ = _ := by rw [hf, hr]
  · exact (hexec s).trans (State.flagThenValue_unlisted x u f r hl hu)

/-- Settles O32: the list in force is asked first, and a form that it does not name goes on as under `latched`. -/
theorem unlistedFormsRunAsWritten : Obligations.UnlistedFormsRunAsWritten := by
  refine fun s l x y hl => ⟨fun hy hx => ?_, fun hx => ?_⟩
  · have hu : refusesPair x y l = false := refusesPair_eq_false hy hx
    exact ⟨State.runsAsLatched_of_unlisted (exec_addReg x y) rfl rfl hl hu,
      State.runsAsLatched_of_unlisted (exec_sub x y) rfl rfl hl hu,
      State.runsAsLatched_of_unlisted (exec_subn x y) rfl rfl hl hu⟩
  · have hu : refusesShift x l = false := refusesShift_eq_false hx
    exact ⟨State.runsAsLatched_of_unlisted (exec_shr x y) rfl rfl hl hu,
      State.runsAsLatched_of_unlisted (exec_shl x y) rfl rfl hl hu⟩

end Sys2Proof.Machine

/-! Index register and memory (R220 to R227): the three writes of I, and the runs of bytes that Fx33, Fx55 and Fx65 move
once none of their addresses is out of range. -/

namespace Sys2Proof.Machine

/-! The writes of I (R220 to R222) -/

/-- The sum of I and a byte is reduced modulo 65536 only (R221). -/
theorem add_zeroExtend_toNat (w : Word) (b : Byte) : (w + b.zeroExtend 16).toNat = (w.toNat + b.toNat) % 65536 := by
  have hb := b.isLt
  rw [BitVec.toNat_add, BitVec.toNat_setWidth, Nat.mod_eq_of_lt (by omega : b.toNat < 2 ^ 16)]

/-- The glyph addresses, 0 to 75, fit in 16 bits (R222). -/
theorem glyphAddr_toNat (v : Byte) : (glyphAddr v).toNat = 5 * (v.toNat % 16) := by
  rw [glyphAddr, BitVec.toNat_ofNat, Nat.mod_eq_of_lt (by omega)]

/-- Settles O36: each is one write of I, and the value is that of the rule. -/
theorem indexWrites : Obligations.IndexWrites := fun s x nnn =>
  ⟨⟨_, rfl, zext16_toNat nnn, rfl⟩, ⟨_, rfl, add_zeroExtend_toNat s.i (s.getV x), rfl⟩,
    ⟨_, rfl, glyphAddr_toNat (s.getV x), rfl⟩⟩

/-! The memory instructions in range (R72, R223 to R225) -/

theorem exec_ldB_of_rangeOk {s : State} (x : Nibble) (h : s.rangeOk 3) :
    exec (.ldB x) s = .next (s.writeMem s.i.toNat (bcdDigits (s.getV x))).advance :=
  State.withRange_ok (.ldB x) _ h

theorem exec_storeRegs_of_rangeOk {s : State} {x : Nibble} (h : s.rangeOk (x.toNat + 1)) :
    exec (.storeRegs x) s = .next (s.writeMem s.i.toNat (s.firstRegs (x.toNat + 1))).advance :=
  State.withRange_ok (.storeRegs x) _ h

theorem exec_loadRegs_of_rangeOk {s : State} {x : Nibble} (h : s.rangeOk (x.toNat + 1)) :
    exec (.loadRegs x) s = .next (s.setRegsFrom 0 (s.readRun s.i.toNat (x.toNat + 1))).advance :=
  State.withRange_ok (.loadRegs x) _ h

/-! The decimal digits (R223) -/

/-- The three bytes that are stored are decimal digits of the value, hundreds first. -/
theorem bcdDigits_eq_digits (v : Byte) : ∃ h d o : Byte, bcdDigits v = [h, d, o] ∧
    h.toNat ≤ 2 ∧ d.toNat ≤ 9 ∧ o.toNat ≤ 9 ∧ 100 * h.toNat + 10 * d.toNat + o.toNat = v.toNat := by
  have hv := v.isLt
  refine ⟨_, _, _, rfl, ?_⟩
  simp only [BitVec.toNat_ofNat]
  omega

/-- Settles O37: the run that is written is the three digits. -/
theorem bcdStoresDigits : Obligations.BcdStoresDigits := by
  intro s x hr
  obtain ⟨h, d, o, hdigits, hh, hd, ho, hsum⟩ := bcdDigits_eq_digits (s.getV x)
  have hexec := exec_ldB_of_rangeOk x hr
  rw [hdigits] at hexec
  have hstored := s.memByte_writeMem s.i.toNat [h, d, o] (by simp [memSize])
  refine ⟨_, hexec, ⟨h.toNat, d.toNat, o.toNat, hh, hd, ho, hsum, ?_, ?_, ?_⟩,
    fun a ha => s.memByte_writeMem_of_ne _ _ a ha, rfl⟩
  · exact congrArg BitVec.toNat (hstored 0 (by simp))
  · exact congrArg BitVec.toNat (hstored 1 (by simp))
  · exact congrArg BitVec.toNat (hstored 2 (by simp))

/-! The register block (R224, R225, R227) -/

/-- Settles O38: the run that is written is V0 to Vx, at most 16 bytes, so no byte of it is written twice. -/
theorem storeRegistersWritesBlock : Obligations.StoreRegistersWritesBlock := by
  refine fun s x hr => ⟨_, exec_storeRegs_of_rangeOk hr, fun k hk => ?_, fun a ha => ?_, rfl⟩
  · have hlen : (s.firstRegs (x.toNat + 1)).length ≤ memSize := by
      have hx := x.isLt
      rw [State.firstRegs_length, memSize]
      omega
    have hlt : k.toNat < (s.firstRegs (x.toNat + 1)).length := by
      rw [State.firstRegs_length]
      exact Nat.lt_succ_of_le hk
    refine (s.memByte_writeMem _ _ hlen k.toNat hlt).trans ?_
    rw [State.firstRegs_getElem, BitVec.ofNat_toNat, BitVec.setWidth_eq]
  · refine s.memByte_writeMem_of_ne _ _ a fun k hk => ha k ?_
    rw [State.firstRegs_length] at hk
    exact Nat.le_of_lt_succ hk

/-- A register block loaded from `a` on: the bytes read are in the first `n` registers, and no other register is written. -/
theorem State.getV_setRegsFrom_readRun (s : State) (a : Nat) {n : Nat} (hn : n ≤ 16) (k : Nibble) :
    (s.setRegsFrom 0 (s.readRun a n)).getV k =
      if k.toNat < n then s.memByte (memIndex (a + k.toNat)) else s.getV k := by
  rw [State.getV_setRegsFrom _ _ _ (by simpa using hn)]
  simp [State.readRun_getElem]

/-- Settles O39: the registers up to x are loaded, and memory is no part of what is written. -/
theorem loadRegistersReadsBlock : Obligations.LoadRegistersReadsBlock := by
  intro s x hr
  have hload := s.getV_setRegsFrom_readRun s.i.toNat (n := x.toNat + 1) x.isLt
  have hframe := s.setRegsFrom_eq 0 (s.readRun s.i.toNat (x.toNat + 1))
  refine ⟨_, exec_loadRegs_of_rangeOk hr, fun k hk => ?_, fun k hk => ?_, ?_, congrArg State.advance hframe⟩
  · exact (hload k).trans (if_pos (Nat.lt_succ_of_le hk))
  · exact (hload k).trans (if_neg (Nat.not_lt.mpr hk))
  · rw [hframe]
    exact fun _ => rfl

/-- Settles O40: each register is loaded from the byte it was stored in. -/
theorem storeThenLoadRestores : Obligations.StoreThenLoadRestores := by
  intro s t u x hs hu ht hi hkept
  obtain ⟨t', ht', hstored, _⟩ := storeRegistersWritesBlock s x hs
  cases ht'.symm.trans ht
  obtain ⟨w, hw, hloaded, _⟩ := loadRegistersReadsBlock u x hu
  refine ⟨w, hw, fun k hk => ?_⟩
  calc
    w.getV k = u.memByte ((s.i.toNat + k.toNat) % 4096) := by rw [hloaded k hk, hi]
    _ = t.memByte ((s.i.toNat + k.toNat) % 4096) := hkept k.toNat hk
    _ = s.getV k := hstored k hk

end Sys2Proof.Machine

/-! Keys and timers (R250 to R258): the key that Vx names, the lowest key that ends the wait, and the timers after the tail
of the cycle that writes them. -/

namespace Sys2Proof.Machine

/-! The key skips (R250 to R252) -/

/-- A value that does not fault names the key of its low nibble: below 16 that is the value itself. -/
theorem keyIndex_of_lt_or_mask {pol : KeyIndexPolicy} {v : Byte} (h : v.toNat < 16 ∨ pol = .mask) :
    keyIndex pol v = some (BitVec.ofNat 4 v.toNat) := by
  by_cases hv : v.toNat < 16
  · exact keyIndex_of_lt pol v hv
  · rw [h.resolve_left hv, keyIndex_mask v (Nat.le_of_not_lt hv)]
    exact congrArg some (BitVec.eq_of_toNat_eq (by simp))

theorem State.skipOnKey_writesPc {s : State} {x : Nibble} (i : Instr) (w : Bool)
    (h : (s.getV x).toNat < 16 ∨ s.params.keyIndexPolicy = .mask) :
    ∃ t, s.skipOnKey i x w = .next t ∧
      s.WritesPc t (if s.keys.getLsbD ((s.getV x).toNat % 16) = w then s.pc + 4 else s.pc + 2) := by
  have hkey := keyIndex_of_lt_or_mask h
  obtain ⟨k, hk, he⟩ | ⟨hnone, _⟩ := s.skipOnKey_cases i x w
  · cases hkey.symm.trans hk
    exact ⟨_, he, s.skipIf_writesPc beq_iff_eq⟩
  · cases hkey.symm.trans hnone

theorem State.skipOnKey_faultedTo {s : State} {x : Nibble} (i : Instr) (w : Bool) (h : 16 ≤ (s.getV x).toNat)
    (hp : s.params.keyIndexPolicy = .fault) :
    ∃ t, s.skipOnKey i x w = .next t ∧ s.FaultedTo t .addressOutOfRange (encode i) (s.getV x).toNat := by
  obtain ⟨k, hk, _⟩ | ⟨_, _, he⟩ := s.skipOnKey_cases i x w
  · rw [hp, keyIndex_fault _ h] at hk
    cases hk
  · exact ⟨_, he, s.takeFault_faultedTo ..⟩

/-- Settles O42: SKP is the skip on a held key, SKNP the skip on a key not held. -/
theorem keySkipsFollowKey : Obligations.KeySkipsFollowKey := fun _ x =>
  ⟨fun h => ⟨State.skipOnKey_writesPc (.skp x) true h, State.skipOnKey_writesPc (.sknp x) false h⟩,
    fun h hp => ⟨State.skipOnKey_faultedTo (.skp x) true h hp, State.skipOnKey_faultedTo (.sknp x) false h hp⟩⟩

/-! The key wait (R253, R254) -/

theorem State.keyQualifies_iff (s : State) (k : Nibble) :
    s.keyQualifies k = true ↔
      s.keys.getLsbD k.toNat = true ∧ (s.params.keyTrigger = .edge → s.keyPrev.getLsbD k.toNat = false) := by
  unfold State.keyQualifies
  cases s.params.keyTrigger <;> simp

theorem exec_ldVxK_of_none (x : Nibble) {s : State} (h : s.waitKey = none) : exec (.ldVxK x) s = .next s := by
  simp [exec, execLdVxK, h]

theorem exec_ldVxK_of_some (x : Nibble) {s : State} {k : Nibble} (h : s.waitKey = some k) :
    exec (.ldVxK x) s = .next (s.setV x (k.zeroExtend 8)).advance := by
  simp [exec, execLdVxK, h]

/-- Settles O43: P is the set of the keys that qualify, and the wait looks for the lowest of them. -/
theorem keyWaitTakesLowestKey : Obligations.KeyWaitTakesLowestKey := by
  intro s x P hP
  have hq (k : Nibble) : s.keyQualifies k = true ↔ P k.toNat := (s.keyQualifies_iff k).trans (hP k.toNat).symm
  have hnot (k : Nibble) : s.keyQualifies k = false ↔ ¬P k.toNat := Bool.eq_false_iff.trans (not_congr (hq k))
  refine ⟨fun hnone => ?_, fun k hk hPk hlow => ?_⟩
  · exact exec_ldVxK_of_none x (s.waitKey_none_iff.mpr fun k => (hnot k).mpr (hnone k.toNat k.isLt))
  · have hlowest : s.waitKey = some (BitVec.ofNatLT k hk) :=
      (s.waitKey_some_iff _).mpr ⟨(hq _).mpr hPk, fun j hj => (hnot j).mpr (hlow j.toNat hj)⟩
    have hbyte : (BitVec.ofNatLT k hk : Nibble).zeroExtend 8 = BitVec.ofNat 8 k := BitVec.eq_of_toNat_eq (by simp)
    exact ⟨_, exec_ldVxK_of_some x hlowest, hbyte ▸ s.setV_writesReg x _⟩

/-! The timers (R256 to R258, R300) -/

theorem State.cycleTail_dt_of_running (s : State) (b : Bool) (h : s.runState = .running) :
    (s.cycleTail b).dt.toNat = if b then s.dt.toNat - 1 else s.dt.toNat := by
  rw [s.cycleTail_running b h]
  cases b <;> simp [countDown_toNat]

theorem State.cycleTail_st_of_running (s : State) (b : Bool) (h : s.runState = .running) :
    (s.cycleTail b).st.toNat = if b then s.st.toNat - 1 else s.st.toNat := by
  rw [s.cycleTail_running b h]
  cases b <;> simp [countDown_toNat]

/-- Settles O44: each move is one write, and the tail's tick finds the timer already written. -/
theorem timerMoves : Obligations.TimerMoves := fun s x b =>
  ⟨⟨_, rfl, s.setV_writesReg x s.dt⟩, ⟨_, rfl, rfl⟩, ⟨_, rfl, rfl⟩, fun hr =>
    ⟨⟨_, rfl, (s.setDt (s.getV x)).advance.cycleTail_dt_of_running b hr⟩,
      ⟨_, rfl, (s.setSt (s.getV x)).advance.cycleTail_st_of_running b hr⟩⟩⟩

end Sys2Proof.Machine

/-! The driver's cycle and the host's actions (R281 to R285, R293, R300 to R323): the cycle that raises a fault, the tail,
and what leaves Halted. -/

namespace Sys2Proof.Machine

/-! The ticks counted (R301) -/

section
variable {s t : State}

theorem State.ticksBounded.of_kept (hs : s.ticksBounded) (hc : t.cycleCount = s.cycleCount)
    (ht : t.tickCount = s.tickCount) : t.ticksBounded := by
  rwa [State.ticksBounded, hc, ht]

/-- The tail counts its cycle whenever it counts a tick, and at most one tick. -/
theorem State.ticksBounded.cycleTail (hs : s.ticksBounded) (b : Bool) : (s.cycleTail b).ticksBounded := by
  cases hr : s.runState with
  | halted => rwa [s.cycleTail_halted b hr]
  | running =>
    rw [s.cycleTail_running b hr]
    cases b with
    | true => exact Nat.succ_le_succ hs
    | false => exact Nat.le_succ_of_le hs

theorem State.ticksBounded.cycle {b : Bool} (hs : s.ticksBounded) (h : s.cycle b = .next t) : t.ticksBounded := by
  obtain ⟨_, rfl⟩ | ⟨_, u, hu, rfl⟩ := State.cycle_cases h
  · exact hs
  · have hkept := State.execFetched_keeps hu
    exact (hs.of_kept hkept.cycleCount hkept.tickCount).cycleTail b

theorem State.ticksBounded.step (hs : s.ticksBounded) (h : step s = .next t) : t.ticksBounded := by
  by_cases ha : ∃ b, s.nextAction = .cycle b
  · obtain ⟨b, hb⟩ := ha
    exact State.ticksBounded.cycle (s := s.popScript) hs (step_of_cycle hb h)
  · obtain ⟨hc, ht⟩ := step_counts_of_not_cycle (not_exists.mp ha) h
    exact hs.of_kept hc ht

end

/-- Settles O57: only the tail of a cycle counts ticks, and the bound that it finds it keeps. -/
theorem ticksStayBounded : Obligations.TicksStayBounded := fun _ _ => State.ticksBounded.step

/-! The cycle that raises a fault (R281 to R285): the execute stage takes it, and the tail comes after -/

theorem State.execFetched_of_outOfRange {s : State} {a : Nat} (hf : s.fetch = .outOfRange a) :
    s.execFetched = .next (s.takeFault .addressOutOfRange 0 a) := by
  simp only [State.execFetched, hf]

theorem State.execFetched_of_invalid {s : State} {op w : Word} (hf : s.fetch = .opcode op)
    (hd : decodeOp s.params.decodeStrict op = .invalid w) :
    s.execFetched = .next (s.takeFault .invalidInstruction w 0) := by
  simp only [State.execFetched, hf, hd]

/-- The record holds an info modulo its width of 17 bits (R38), so the info read back from it makes the same fault. -/
theorem State.takeFault_ofNat_toNat (s : State) (c : FaultCause) (op : Word) (info : Nat) :
    s.takeFault c op (BitVec.ofNat 17 info).toNat = s.takeFault c op info := by
  simp only [State.takeFault, State.recordFault, BitVec.ofNat_toNat, BitVec.setWidth_eq]

/-- The fault that an instruction has taken is the one that its record names (R284). -/
theorem exec_eq_takeFault {i : Instr} {s u : State} (hok : s.lastResult = .ok) (h : exec i s = .next u)
    (hfault : u.lastResult ≠ .ok) : u = s.takeFault u.faultCause (encode i) u.faultAddr.toNat := by
  obtain ⟨c, info, hto⟩ := instructionFaultsArePrecise i s u hok h hfault
  obtain rfl := State.eq_takeFault_of_faultedTo hto
  rw [State.takeFault_faultCause, State.takeFault_faultAddr, State.takeFault_ofNat_toNat]

section
variable {s : State} {b : Bool} (hr : s.runState = .running) (ha : s.nextAction = .cycle b)
include hr ha

theorem step_of_fetch_fault {a : Nat} (hf : s.fetch = .outOfRange a) :
    step s = .next ((s.popScript.startCycle.takeFault .addressOutOfRange 0 a).cycleTail b) := by
  have hexec := State.execFetched_of_outOfRange (s := s.popScript.startCycle) hf
  rw [step_running hr ha, hexec, thenTail]

theorem step_of_invalid {op : Word} (hf : s.fetch = .opcode op)
    (hd : decodeOp s.params.decodeStrict op = .invalid op) :
    step s = .next ((s.popScript.startCycle.takeFault .invalidInstruction op 0).cycleTail b) := by
  have hexec := State.execFetched_of_invalid (s := s.popScript.startCycle) hf hd
  rw [step_running hr ha, hexec, thenTail]

theorem step_of_instruction_fault {op : Word} {i : Instr} {u : State} (hf : s.fetch = .opcode op)
    (hd : decodeOp s.params.decodeStrict op = .instr i) (h : exec i s.popScript.startCycle = .next u)
    (hfault : u.lastResult ≠ .ok) :
    step s = .next ((s.popScript.startCycle.takeFault u.faultCause op u.faultAddr.toNat).cycleTail b) := by
  have hexec := State.execFetched_of_decodes (s := s.popScript.startCycle) hf hd
  have hu := exec_eq_takeFault rfl h hfault
  obtain ⟨rfl, _⟩ := encode_of_decodeOp hd
  rw [step_running hr ha, hexec, h, thenTail, ← hu]

end

/-- Settles O11: each of the three takes its fault, and after it the tail does nothing. -/
theorem haltingFaultEndsCycle : Obligations.HaltingFaultEndsCycle := by
  refine fun s b hr ha hh => ⟨fun a hf => ?_, fun op hf hd => ?_, fun op i u hf hd h hfault => ?_⟩
  · rw [step_of_fetch_fault hr ha hf, State.cycleTail_takeFault_halt hh]
  · rw [step_of_invalid hr ha hf hd, State.cycleTail_takeFault_halt hh]
  · rw [step_of_instruction_fault hr ha hf hd h hfault, State.cycleTail_takeFault_halt hh]

/-- Settles O12: each of the three takes its fault, which advances PC, and the tail is performed. -/
theorem skippedFaultRunsTail : Obligations.SkippedFaultRunsTail := fun _ b hr ha hs =>
  ⟨fun _ hf => ⟨_, step_of_fetch_fault hr ha hf, State.skippedTo_takeFault hr hs b ..⟩,
    fun _ hf hd => ⟨_, step_of_invalid hr ha hf hd, State.skippedTo_takeFault hr hs b ..⟩,
    fun _ _ _ hf hd h hfault =>
      ⟨_, step_of_instruction_fault hr ha hf hd h hfault, State.skippedTo_takeFault hr hs b ..⟩⟩

/-! The cycle tail (R41, R300, R311) -/

/-- Settles O46: the tail ticks the timer that the first instruction wrote, and the second one reads it. -/
theorem tickFollowsTimerWrite : Obligations.TickFollowsTimerWrite := by
  intro s b x y hr
  refine ⟨_, rfl, _, rfl, ?_⟩
  rw [State.getV_advance, State.getV_setV_same]
  exact (s.setDt (s.getV x)).advance.cycleTail_dt_of_running b hr

/-- The tail of a running core writes the timers, the two counters and the key sample only. -/
theorem State.cycleTail_frame_of_running (s : State) (b : Bool) (h : s.runState = .running) :
    s.cycleTail b =
      { s with
        dt := (s.cycleTail b).dt
        st := (s.cycleTail b).st
        tickCount := (s.cycleTail b).tickCount
        keyPrev := s.keys
        cycleCount := s.cycleCount + 1 } := by
  rw [s.cycleTail_running b h]
  cases b <;> rfl

/-- Settles O9: the tail of a running core field by field, and that of a halted core, which is no tail. -/
theorem cycleTailTicksAndCounts : Obligations.CycleTailTicksAndCounts := by
  refine fun u b => ⟨fun hr => ⟨_, rfl, u.cycleTail_dt_of_running b hr, u.cycleTail_st_of_running b hr, ?_,
    u.cycleTail_frame_of_running b hr⟩, fun hh => ?_⟩
  · simp [u.cycleTail_tickCount b, hr]
  · rw [thenTail, u.cycleTail_halted b hh]

/-! Halted (R293, R310, R313) -/

theorem State.cycle_of_halted {s : State} (b : Bool) (h : s.runState = .halted) :
    s.cycle b = .next { s with lastResult := .halted } := by
  simp only [State.cycle, h]

theorem State.cycle_keeps_halted {s t : State} {b : Bool} (hs : s.runState = .halted) (h : s.cycle b = .next t) :
    t.runState = .halted := by
  cases (s.cycle_of_halted b hs).symm.trans h
  exact hs

theorem step_eq_cycle {s : State} {b : Bool} (ha : s.nextAction = .cycle b) : step s = s.popScript.cycle b := by
  simp only [step, State.hostStep, ha, State.perform]

/-- Settles O10: the cycle finds the core halted, with the action already taken off the script. -/
theorem haltedCycleChangesNothing : Obligations.HaltedCycleChangesNothing := fun s b hh ha =>
  (step_eq_cycle ha).trans (s.popScript.cycle_of_halted b hh)

/-- Settles O52: of the six actions only Reset and an accepted LoadProgram write Running. -/
theorem onlyResetOrLoadLeavesHalted : Obligations.OnlyResetOrLoadLeavesHalted := by
  intro s t hs h ht
  have hne : t.runState ≠ .halted := by simp [ht]
  obtain ⟨b, _, hc⟩ | ⟨k, _, rfl⟩ | ⟨_, rfl⟩ | ⟨_, rfl⟩ | ⟨ha, _⟩ | ⟨bytes, ha, rfl⟩ := step_cases h
  · exact absurd (State.cycle_keeps_halted (s := s.popScript) hs hc) hne
  · exact absurd hs hne
  · exact absurd hs hne
  · exact absurd rfl hne
  · exact .inl ha
  · obtain hlong | hfits := Nat.lt_or_ge progMax bytes.length
    · rw [State.loadProgram_rejected _ _ hlong] at hne
      exact absurd hs hne
    · exact .inr ⟨bytes, ha, hfits⟩

/-! The host's other actions (R321 to R323) -/

theorem State.popScript_of_script {s : State} {a : HostAction} {rest : List HostAction} (h : s.script = a :: rest) :
    s.popScript = { s with script := rest } := by
  simp only [State.popScript, h, List.tail_cons]

/-- Settles O47: each of the three is one write, on the state whose script has lost the action. -/
theorem hostActionsChangeOnlyTheirs : Obligations.HostActionsChangeOnlyTheirs := by
  refine fun s rest => ⟨fun k h => ?_, fun h => ?_, fun h => ?_⟩ <;>
  · rw [step_of_script h, State.popScript_of_script h]
    rfl

end Sys2Proof.Machine

/-! LoadProgram (spec/70_reset_and_hazards.md, R342, R343): where an accepted image stands, and what is read around it. -/

namespace Sys2Proof.Machine

/-- An image that fits ends at the top of memory at the latest, so no address of it wraps. -/
theorem memIndex_progBase_add {k : Nat} (h : k < progMax) : memIndex (progBase + k) = progBase + k :=
  Nat.mod_eq_of_lt (Nat.add_lt_add_left h progBase)

section
variable (s : State) {bytes : List Byte} (hfits : bytes.length ≤ progMax)
include hfits

theorem State.memByte_writeMem_progBase {k : Nat} (hk : k < bytes.length) :
    (s.writeMem progBase bytes).memByte (progBase + k) = bytes[k] := by
  have hlen : bytes.length ≤ memSize := hfits.trans (by decide)
  have hread := s.memByte_writeMem progBase bytes hlen k hk
  rwa [memIndex_progBase_add (hk.trans_le hfits)] at hread

theorem State.memByte_writeMem_progBase_of_outside {a : Nat} (ha : a < progBase ∨ progBase + bytes.length ≤ a) :
    (s.writeMem progBase bytes).memByte a = s.memByte a := by
  refine s.memByte_writeMem_of_ne _ _ a fun k hk => ?_
  rw [memIndex_progBase_add (hk.trans_le hfits)]
  omega

theorem step_of_loadProgram_ok {s : State} {rest : List HostAction} (hs : s.script = .loadProgram bytes :: rest) :
    step s = .next { (s.popScript.writeMem progBase bytes).doReset with lastLoad := .loadOk } := by
  rw [step_of_script hs, State.perform, State.loadProgram_ok _ _ hfits]

end

theorem step_of_loadProgram_rejected {s : State} {bytes : List Byte} {rest : List HostAction}
    (hlong : progMax < bytes.length) (hs : s.script = .loadProgram bytes :: rest) :
    step s = .next { s with script := rest, lastLoad := .loadRejected } := by
  rw [step_of_script hs, State.perform, State.loadProgram_rejected _ _ hlong, State.popScript_of_script hs]

/-- Settles O49: an accepted load is `doReset` of the state with the image written, and the reset re-installs only the
font, which ends below the image. -/
theorem loadProgramLoadsOrRejects : Obligations.LoadProgramLoadsOrRejects := by
  refine fun s bytes rest hs => ⟨fun hfits => ?_, fun hlong => step_of_loadProgram_rejected hlong hs⟩
  refine ⟨_, step_of_loadProgram_ok hfits hs, rfl, fun k hk => ?image,
    fun _ ha => State.memByte_doReset_of_lt (s.popScript.writeMem progBase bytes) ha, fun a hfont ha => ?rest, ?reset⟩
  case image =>
    have habove : fontSize ≤ progBase + k := Nat.le_add_right_of_le (by decide)
    exact (State.memByte_doReset_of_ge _ habove).trans (s.popScript.memByte_writeMem_progBase hfits hk)
  case rest =>
    exact (State.memByte_doReset_of_ge _ hfont).trans (s.popScript.memByte_writeMem_progBase_of_outside hfits ha)
  case reset =>
    rw [step_of_script rfl, State.popScript_of_script hs]
    rfl

end Sys2Proof.Machine
